-- ==== Sys2Proof/Word.lean ====
section
/-!
DEFINITION. The plain data the whole model speaks in: characters, ticks, texts, priority classes,
and tables of numbered records.
-/

namespace Sys2Proof

/-- One character of the host link (R162: eight data bits). -/
abbrev Byte := BitVec 8

/-- One character of the station line, ninth bit included (R130). -/
abbrev Char9 := BitVec 9

/-- A value of the site clock: a count of ticks modulo 2^24 (R43, Conventions of 00_scope.md). -/
abbrev Tick := BitVec 24

/-- Call text, crew names and note texts (Conventions, "Text"). -/
abbrev Text := List Byte

/-- The priority class of a call (Terms, "Class"); a higher rank is the higher class. -/
inductive Cls where
  | routine
  | urgent
  | hazard
  | emergency
deriving DecidableEq, Repr

/-- The number of a class: ROUTINE 0, URGENT 1, HAZARD 2, EMERGENCY 3. -/
def Cls.rank : Cls → Nat
  | .routine => 0
  | .urgent => 1
  | .hazard => 2
  | .emergency => 3

/-- One value for each class. -/
structure PerClass (α : Type) where
  routine : α
  urgent : α
  hazard : α
  emergency : α
deriving DecidableEq, Repr

/-- The value held for one class. -/
def PerClass.get {α : Type} (p : PerClass α) : Cls → α
  | .routine => p.routine
  | .urgent => p.urgent
  | .hazard => p.hazard
  | .emergency => p.emergency

/-- Record number `k`, counted from 1, of a table of `n` records; `d` for a number the table does
not have. -/
def row {α : Type} {n : Nat} (t : Vector α n) (k : Nat) (d : α) : α :=
  if k = 0 then d else t.toList.getD (k - 1) d

/-- The table with record number `k`, counted from 1, replaced; unchanged for a number the table
does not have. -/
def setRow {α : Type} {n : Nat} (t : Vector α n) (k : Nat) (x : α) : Vector α n :=
  if k = 0 then t else t.setIfInBounds (k - 1) x

end Sys2Proof
end

