-- ==== Sys2Proof/Config.lean ====
section
/-!
DEFINITION. The capacities and limits the spec fixes for the part, and the two values it leaves
open (opaque: nothing in the model can evaluate them).
-/

namespace Sys2Proof

/-- The call book holds at most 96 records (R1). -/
def Config.maxCalls : Nat := 96

/-- The call-point table holds up to 32 entries (R11). -/
def Config.maxPoints : Nat := 32

/-- A crew's accepted list holds at most 3 calls (R30). -/
def Config.maxAccepted : Nat := 3

/-- The step targets of a call hold at most 8 crews (R55, R61). -/
def Config.maxTargets : Nat := 8

/-- The recent-acknowledgement list holds up to 64 entries (R76). -/
def Config.maxAcks : Nat := 64

/-- Queued items plus items of the unanswered burst of a station never exceed 24 (R109). -/
def Config.queueCap : Nat := 24

/-- A burst holds up to 6 items (R117). -/
def Config.burstCap : Nat := 6

/-- The reply queue holds up to 8 replies (chapter 9, R166). -/
def Config.maxReplies : Nat := 8

/-- The longest payload of a frame (R163). -/
def Config.maxPayload : Nat := 250

/-- The contents of a reply that fit in one frame (R192). -/
def Config.segmentLen : Nat := 248

/-- One chain of empty steps makes at most 32 step starts (R54), so 33 advances are never used up. -/
def Config.chainLimit : Nat := 33

/-- The host link start character (R188). -/
def Config.startChar : Byte := 0x7E#8

/-- FREE VALUE: the character that would stand for the output level RELEASED. R192 gives codes for
LOW and HIGH alone; no reply is formed while the outputs are released (R161, R172). Entry 14. -/
opaque Config.releasedCode : Byte

/-- FREE VALUE: the character that would stand for an absent load result. R192 gives codes for OK,
BLANK and BAD_CHECK alone; no part record is sent before a load ends (R187). Entry 14. -/
opaque Config.noLoadResultCode : Byte

end Sys2Proof
end

