-- ==== Sys2Proof/Syntax.lean ====
section
/-!
DEFINITION. The commands of the block: one constructor for each row of spec/opcode_table.json, with
the operands that the row's rule gives it.
-/

namespace Sys2Proof

/-- What the two-wire line gives the start-up load (R180). -/
inductive EepromRead where
  /-- The EEPROM answers and gives the image it holds, its check agreeing. -/
  | held
  /-- The EEPROM answers, and the check does not agree with the contents. -/
  | checkDisagrees
  /-- The EEPROM gives no answer on the two-wire line. -/
  | noAnswer
deriving DecidableEq, Repr

/-- The commands and events of the CP-96, one for each row of the table. A request carries the tag
and the payload characters of its frame (R163, R189). -/
inductive Instr where
  /-- POWER_ON (R179): the supply rises. -/
  | powerOn
  /-- RSTN_LOW (R179): RSTN is driven low. -/
  | rstnLow
  /-- RSTN_HIGH (R179): RSTN returns high. -/
  | rstnHigh
  /-- START_UP_LOAD_END (R180): the load ends, having read the image as `found` says. -/
  | startUpLoadEnd (found : EepromRead)
  /-- SITE_CLOCK_TICK (R43): 125 ms have passed. -/
  | siteClockTick
  /-- REPEAT_EXPIRY (R59): the next repeat tick of the call is reached. -/
  | repeatExpiry (call : Nat)
  /-- STEP_DEADLINE_EXPIRY (R60): the step deadline of the call is reached. -/
  | stepDeadlineExpiry (call : Nat)
  /-- ARRIVAL_EXPIRY (R71): the arrival deadline of the call is reached. -/
  | arrivalExpiry (call : Nat)
  /-- DEDUPE_ENTRY_EXPIRY (R76): the tick's removal of entries older than the dedupe window. -/
  | dedupeEntryExpiry
  /-- LOCATION_EXPIRY (R97): the tick's ageing out of locations. -/
  | locationExpiry
  /-- AIRTIME_DEADLINE_EXPIRY (R122): the airtime deadline of the ON_AIR station is reached. -/
  | airtimeDeadlineExpiry (station : Nat)
  /-- POLL_DUE (R141): the poll due tick of the station is reached. -/
  | pollDue (station : Nat)
  /-- BEACON_PERIOD_END (R156): the position of the driving beacon has reached P. -/
  | beaconPeriodEnd (beacon : Nat)
  /-- SILENCE_TIMER_EXPIRY (R174): the silence timer is reached while ONLINE. -/
  | silenceTimerExpiry
  /-- RAISE (R9). -/
  | raise (tag : Byte) (payload : List Byte)
  /-- CLEAR (R19). -/
  | clear (tag : Byte) (payload : List Byte)
  /-- CANCEL (R19). -/
  | cancel (tag : Byte) (payload : List Byte)
  /-- QUERY_CALL (R22). -/
  | queryCall (tag : Byte) (payload : List Byte)
  /-- LIST_CALLS (R23). -/
  | listCalls (tag : Byte) (payload : List Byte)
  /-- SET_CALLPOINT_DEFINE (R12). -/
  | setCallpointDefine (tag : Byte) (payload : List Byte)
  /-- SET_CALLPOINT_REMOVE (R12). -/
  | setCallpointRemove (tag : Byte) (payload : List Byte)
  /-- SET_CREW (R33). -/
  | setCrew (tag : Byte) (payload : List Byte)
  /-- SET_POOL (R39). -/
  | setPool (tag : Byte) (payload : List Byte)
  /-- QUERY_CREW (R40). -/
  | queryCrew (tag : Byte) (payload : List Byte)
  /-- QUERY_POOL (R40). -/
  | queryPool (tag : Byte) (payload : List Byte)
  /-- QUERY_PAGER (R41). -/
  | queryPager (tag : Byte) (payload : List Byte)
  /-- SET_LADDER (R48). -/
  | setLadder (tag : Byte) (payload : List Byte)
  /-- QUERY_LADDER (R49). -/
  | queryLadder (tag : Byte) (payload : List Byte)
  /-- ADVANCE (R68). -/
  | advance (tag : Byte) (payload : List Byte)
  /-- DIRECT (R70). -/
  | direct (tag : Byte) (payload : List Byte)
  /-- LIST_ACKS (R78). -/
  | listAcks (tag : Byte) (payload : List Byte)
  /-- QUERY_QUEUE (R113). -/
  | queryQueue (tag : Byte) (payload : List Byte)
  /-- SET_STATION_DEFINE (R149). -/
  | setStationDefine (tag : Byte) (payload : List Byte)
  /-- SET_STATION_REMOVE (R149). -/
  | setStationRemove (tag : Byte) (payload : List Byte)
  /-- QUERY_STATION (R151). -/
  | queryStation (tag : Byte) (payload : List Byte)
  /-- BEACON_HOLD (R158), action HOLD. -/
  | beaconHold (tag : Byte) (payload : List Byte)
  /-- BEACON_RELEASE (R158), action RELEASE. -/
  | beaconRelease (tag : Byte) (payload : List Byte)
  /-- QUERY_BEACONS (R160). -/
  | queryBeacons (tag : Byte) (payload : List Byte)
  /-- SET_BEACON (R159). -/
  | setBeacon (tag : Byte) (payload : List Byte)
  /-- SET_PARAMS (R183). -/
  | setParams (tag : Byte) (payload : List Byte)
  /-- STORE (R185). -/
  | store (tag : Byte) (payload : List Byte)
  /-- QUERY_PART (R187). -/
  | queryPart (tag : Byte) (payload : List Byte)
  /-- RESET (R176). -/
  | reset (tag : Byte) (payload : List Byte)
  /-- UNKNOWN_REQUEST (R166): a valid frame whose kind names no request. -/
  | unknownRequest (kind tag : Byte) (payload : List Byte)
  /-- FRAME_BAD_CHECK (R164): a complete frame whose check disagrees. -/
  | frameBadCheck (kind tag : Byte) (payload : List Byte) (check : BitVec 16)
  /-- WRONG_LENGTH (R164): a start character and a length character above 250. -/
  | wrongLength (length : Byte)
  /-- FRAME_GAP (R165): the characters that arrive, and then the gap. -/
  | frameGap (chars : List Byte)
  /-- BREAK (R165): the characters that arrive, and then the break. -/
  | lineBreak (chars : List Byte)
  /-- CHARACTER_ERROR (R165): the characters that arrive, and then the character error. -/
  | characterError (chars : List Byte)
  /-- HCTS_ASSERTED (R169): HCTS is found asserted. -/
  | hctsAsserted
  /-- FRAME_SENT (R169): the last character of the frame leaves, and the outbound path is free; `hcts` is the level of
  HCTS then sampled. -/
  | frameSent (hcts : Bool)
  /-- STORE_COMPLETE (R185): the last write of a STORE completes. -/
  | storeComplete
  /-- STORE_FAILED (R186): a write of a STORE fails. -/
  | storeFailed
  /-- POLL_EXCHANGE_BEGIN (R136): the line is free and the arbiter begins a poll. -/
  | pollExchangeBegin
  /-- BURST_EXCHANGE_BEGIN (R135): the line is free and the arbiter begins a BURST exchange. -/
  | burstExchangeBegin
  /-- REPLY_WINDOW_EXPIRY (R132): no reply character within the reply window. -/
  | replyWindowExpiry
  /-- REPLY_GAP_ABANDON (R132): a gap of more than 3 character times within a reply. -/
  | replyGapAbandon
  /-- MALFORMED_REPLY_START (R194): the characters received show that the reply is malformed. -/
  | malformedReplyStart (chars : List Char9)
  /-- POLL_REPLY (R134): the characters of a complete poll reply. -/
  | pollReply (chars : List Char9)
  /-- BURST_REPLY (R135): the characters of a complete burst reply. -/
  | burstReply (chars : List Char9)
  /-- BEACON_ON_TIME_END (R156): the position of the driving beacon has reached D. -/
  | beaconOnTimeEnd (beacon : Nat)
deriving DecidableEq, Repr

end Sys2Proof
end

