-- ==== Sys2Proof/Machine/State.lean ====
section
/-!
DEFINITION. Everything the spec gives the CP-96 to remember, block by block (00_scope.md, "Block
overview"), as plain data, and its value right after reset.
-/

namespace Sys2Proof.Machine

/-- No command of this block stops it: the spec answers a request it cannot carry out with a refusal
code, which is an ordinary reply (R167), so there is no fault to name. -/
inductive Fault where
deriving DecidableEq, Repr

/-- Why a command has no meaning. -/
inductive Refusal where
  /-- Raised by an arm of `exec` whose command has no meaning yet. Safe: nothing is claimed of it.
  No arm raises it in this model. -/
  | notModelled (mnemonic : String)
deriving DecidableEq, Repr

/-! ### Configuration store: the parameter set and the image (chapter 10) -/

/-- A beacon pattern: period P and on-time D in ticks (R155). -/
structure Pattern where
  period : Nat
  onTime : Nat
deriving DecidableEq, Repr

/-- The parameter set, in the units of the table of R182. -/
structure Params where
  /-- Class factors in eighths. -/
  factor : PerClass Nat
  /-- Location freshness, seconds. -/
  freshness : Nat
  /-- Dedupe window, seconds. -/
  dedupe : Nat
  /-- Silence limit, seconds. -/
  silence : Nat
  /-- Poll period, ticks. -/
  pollPeriod : Nat
  /-- Airtime limit, ticks. -/
  airtimeLimit : Nat
  /-- Stay limit, grants. -/
  stayLimit : Nat
  /-- Miss limit, misses. -/
  missLimit : Nat
  /-- Beacon period and on-time of each class. -/
  pattern : PerClass Pattern
  /-- Host link rate, bit/s. -/
  rate : Nat
deriving DecidableEq, Repr

/-- The defaults of the table of R182. -/
def Params.default : Params where
  factor := ⟨8, 6, 4, 3⟩
  freshness := 300
  dedupe := 10
  silence := 30
  pollPeriod := 4
  airtimeLimit := 40
  stayLimit := 2
  missLimit := 3
  pattern := ⟨⟨16, 8⟩, ⟨8, 4⟩, ⟨4, 2⟩, ⟨2, 1⟩⟩
  rate := 19200

/-! ### Crew registry (chapter 2) -/

/-- Duty of a crew (R25). -/
inductive Duty where
  | offDuty
  | onDuty
deriving DecidableEq, Repr

/-- One crew record (R25). -/
structure Crew where
  defined : Bool
  name : Text
  duty : Duty
  members : List Nat
  home : Nat
  /-- The calls the crew has taken and not yet finished, in acceptance order. -/
  accepted : List Nat
deriving DecidableEq, Repr

/-- The values of an undefined crew (R25). -/
def Crew.undefined : Crew := ⟨false, [], .offDuty, [], 1, []⟩

/-- One pool: its crews in order and its rotation pointer, 0 for an empty pool (R35). -/
structure Pool where
  crews : List Nat
  pointer : Nat
deriving DecidableEq, Repr

/-- An empty pool (R35). -/
def Pool.empty : Pool := ⟨[], 0⟩

/-- Where and when a pager was last heard (R95). -/
structure Location where
  station : Nat
  quality : Nat
  heard : Tick
deriving DecidableEq, Repr

/-- One entry of the pager directory (R29). -/
structure PagerEntry where
  pager : Nat
  owner : Nat
  location : Option Location
deriving DecidableEq, Repr

/-- The crew registry (R25, R29, R35). The directory is kept in ascending pager number. -/
structure Registry where
  crews : Vector Crew 48
  pools : Vector Pool 16
  directory : List PagerEntry
deriving DecidableEq, Repr

/-! ### Escalation engine (chapter 3) -/

/-- The target kind of a step with its operand (R46). -/
inductive StepKind where
  | crew (c : Nat)
  | poolOne (p : Nat)
  | poolAll (p : Nat)
  | refer
  | noTarget
deriving DecidableEq, Repr

/-- One step of a ladder (R46): windows in seconds. -/
structure LadderStep where
  kind : StepKind
  window : Nat
  repeats : Nat
  beacon : Option Nat
deriving DecidableEq, Repr

/-- One ladder (R45): arrival window in seconds. -/
structure Ladder where
  steps : List LadderStep
  arrival : Nat
  restartLimit : Nat
  exhaustBeacon : Option Nat
deriving DecidableEq, Repr

/-- The one step of the default ladder (R45). -/
def LadderStep.default : LadderStep := ⟨.noTarget, 60, 0, none⟩

/-- The default ladder (R45). -/
def Ladder.default : Ladder := ⟨[LadderStep.default], 300, 0, none⟩

/-! ### Call book (chapter 1) -/

/-- The states of a call (1.2). -/
inductive CallState where
  | paging
  | accepted
  | onScene
  | exhausted
  | closed
deriving DecidableEq, Repr

/-- Why a call was closed (1.1). -/
inductive CloseReason where
  | cleared
  | cancelled
  | doneByCrew
deriving DecidableEq, Repr

/-- Who raised a call (1.1). -/
inductive CallSource where
  | plantComputer
  | callPoint (station input : Nat)
deriving DecidableEq, Repr

/-- One call record: the fields of the table of 1.1. -/
structure Call where
  number : Nat
  state : CallState
  reason : Option CloseReason
  source : CallSource
  origin : Nat
  cls : Cls
  ladder : Nat
  text : Text
  preferred : Option Nat
  stepIndex : Nat
  directed : Bool
  stepPool : Option Nat
  restarts : Nat
  stepStart : Tick
  /-- W, ticks. -/
  window : Nat
  /-- I, ticks. -/
  interval : Nat
  /-- R_eff. -/
  repeats : Nat
  attempts : Nat
  stepDeadline : Option Tick
  nextRepeat : Option Tick
  arrivalDeadline : Option Tick
  targets : List Nat
  declined : List Nat
  paged : List Nat
  accepting : Option Nat
  raiseTick : Tick
  acceptTick : Option Tick
  onSceneTick : Option Tick
  referred : Bool
  forceWide : Bool
  heldBeacon : Option Nat
  presses : Nat
  closeTick : Option Tick
deriving DecidableEq, Repr

/-- The state of a call point (R11). -/
inductive PointState where
  | idle
  | opened (call : Nat)
  | pending
deriving DecidableEq, Repr

/-- One entry of the call-point table (R11). -/
structure CallPoint where
  station : Nat
  input : Nat
  ladder : Nat
  cls : Cls
  text : Text
  state : PointState
deriving DecidableEq, Repr

/-- The call book (chapter 1). The records are kept in ascending call number; `closedOrder` names the
CLOSED ones in the order in which they closed (R5). -/
structure CallBook where
  calls : List Call
  closedOrder : List Nat
  counter : Nat
  points : List CallPoint
  /-- The keys (station, input) of the pending-press list, oldest first (R16). -/
  pendingPresses : List (Nat × Nat)
deriving DecidableEq, Repr

/-! ### Acknowledgement unit (chapter 4) -/

/-- The kinds of acknowledgement. -/
inductive AckKind where
  | accept
  | decline
  | onScene
  | done
deriving DecidableEq, Repr

/-- One entry of the recent-acknowledgement list (R76). -/
structure AckEntry where
  pager : Nat
  call : Nat
  kind : AckKind
  heard : Tick
  station : Nat
deriving DecidableEq, Repr

/-! ### Airtime scheduler (chapter 6) -/

/-- The kinds of page item (R108). -/
inductive ItemKind where
  | page
  | repage
  | standDown
  | closeNote
deriving DecidableEq, Repr

/-- One page item (R108). -/
structure Item where
  pager : Nat
  call : Nat
  kind : ItemKind
  cls : Cls
  text : Text
  attempt : Nat
deriving DecidableEq, Repr

/-- An in-flight burst (R117). -/
structure Burst where
  id : Byte
  items : List Item
deriving DecidableEq, Repr

/-- The grant phase of a station (R114). -/
inductive Phase where
  | none
  | granted
  | inFlight
  | onAir
deriving DecidableEq, Repr

/-- The page queue of a station: return part, ordered part and in-flight burst (R109), with its grant
phase and wait-for-idle mark (R114). -/
structure StationQueue where
  returned : List Item
  ordered : List Item
  flight : Option Burst
  phase : Phase
  waitIdle : Bool
deriving DecidableEq, Repr

/-- An empty queue (R109, R129). -/
def StationQueue.empty : StationQueue := ⟨[], [], none, .none, false⟩

/-- The air grant and rotation state of a channel group (R114). -/
structure Group where
  holder : Option Nat
  last : Nat
  consecutive : Nat
  deadline : Option Tick
deriving DecidableEq, Repr

/-- A group whose grant is free (R129). -/
def Group.free : Group := ⟨none, 0, 0, none⟩

/-- The airtime scheduler. -/
structure Scheduler where
  queues : Vector StationQueue 12
  groups : Vector Group 4
  burstId : Byte
deriving DecidableEq, Repr

/-! ### Station line controller (chapter 7) -/

/-- Service settings and service states (R138). A setting is never `suspect` or `silent`. -/
inductive Service where
  | inService
  | suspect
  | silent
  | outOfService
deriving DecidableEq, Repr

/-- One station record (R138), its neighbour list included (R99). -/
structure Station where
  defined : Bool
  group : Nat
  setting : Service
  service : Service
  misses : Nat
  due : Option Tick
  /-- The station's due poll waits at the line (R141). -/
  pollWaits : Bool
  mark : Byte
  resync : Bool
  neighbours : List Nat
deriving DecidableEq, Repr

/-- The values of an undefined station (R138). -/
def Station.undefined : Station := ⟨false, 1, .inService, .outOfService, 0, none, false, 0#8, false, []⟩

/-- The two exchanges of the line (7.2). -/
inductive ExchangeKind where
  | poll
  | burst
deriving DecidableEq, Repr

/-- The exchange in progress (R138). -/
structure Exchange where
  kind : ExchangeKind
  station : Nat
  burstId : Byte
  /-- The POLL carried RESYNC (R144). -/
  resync : Bool
  /-- The command as sent on the line (R193). -/
  command : List Char9
  /-- The station left while the exchange was on the line, so it ends without effect (R137). -/
  void : Bool
  /-- The station's group changed while its BURST was on the line, so the reply acts on the
  station's health alone (R137). -/
  detached : Bool
deriving DecidableEq, Repr

/-- The station line controller. -/
structure Line where
  stations : Vector Station 12
  followUps : List Nat
  /-- The stations whose BURST exchanges wait, earliest grant first (R116, R136). -/
  burstWaits : List Nat
  exchange : Option Exchange
deriving DecidableEq, Repr

/-! ### Beacon unit (chapter 8) -/

/-- Idle levels (R153). -/
inductive Level where
  | low
  | high
deriving DecidableEq, Repr

/-- Output levels (R153). -/
inductive OutLevel where
  | low
  | high
  | released
deriving DecidableEq, Repr

/-- What a driving beacon holds: its pattern class, the P and D read at the last phase restart and the
period start tick (R153). -/
structure Driving where
  cls : Cls
  period : Nat
  onTime : Nat
  start : Tick
deriving DecidableEq, Repr

/-- One beacon record (R153). -/
structure Beacon where
  idle : Level
  holders : List Nat
  hold : Option Cls
  driving : Option Driving
  output : OutLevel
deriving DecidableEq, Repr

/-- A beacon while the outputs are released (R161). -/
def Beacon.released : Beacon := ⟨.low, [], none, none, .released⟩

/-! ### Host link (chapter 9) -/

/-- The link states (9.6). -/
inductive LinkState where
  | starting
  | online
  | local
deriving DecidableEq, Repr

/-- The records the notice list can hold (R170). -/
inductive NoticeKey where
  | call (n : Nat)
  | crew (c : Nat)
  | station (st : Nat)
  | part
deriving DecidableEq, Repr

/-- Result codes of a reply (R167, R191). -/
inductive Result where
  | ok
  | unknownRequest
  | badLength
  | badValue
  | noSuchCall
  | callClosed
  | noSuchEntry
  | bookFull
  | tableFull
  | pagerInUse
  | storeBusy
  | wrongState
deriving DecidableEq, Repr

/-- A reply in the reply queue (R167), with the number of the segment to be sent next (R192). -/
structure Reply where
  kind : Byte
  tag : Byte
  result : Result
  contents : List Byte
  segment : Nat
deriving DecidableEq, Repr

/-- The frame being sent. -/
structure Frame where
  /-- Its characters on HTXD, start to check. -/
  chars : List Byte
  /-- The CLOSED call whose record its end frees (R7, R171). -/
  frees : Option Nat
  /-- It is the last frame of the RESET reply (R176). -/
  resets : Bool
deriving DecidableEq, Repr

/-- The receiver (R163): searching for a start character, or receiving a frame of which it holds these
characters, the rate in use having changed since its start character or not (R180). -/
inductive Receiver where
  | searching
  | receiving (chars : List Byte) (rateChanged : Bool)
deriving DecidableEq, Repr

/-- The host link. -/
structure Link where
  state : LinkState
  rx : Receiver
  replies : List Reply
  notices : List NoticeKey
  sending : Option Frame
  silence : Option Tick
  resetPending : Bool
  rateInUse : Nat
  /-- The HCTS level last sampled (R169). -/
  hcts : Bool
deriving DecidableEq, Repr

/-! ### Configuration store (chapter 10) -/

/-- What the image holds of a crew (R178). -/
structure StoredCrew where
  defined : Bool
  name : Text
  duty : Duty
  members : List Nat
  home : Nat
deriving DecidableEq, Repr

/-- What the image holds of a station (R178). -/
structure StoredStation where
  defined : Bool
  group : Nat
  setting : Service
  neighbours : List Nat
deriving DecidableEq, Repr

/-- What the image holds of a call point (R178). -/
structure StoredPoint where
  station : Nat
  input : Nat
  ladder : Nat
  cls : Cls
  text : Text
deriving DecidableEq, Repr

/-- The stored tables (R178). -/
structure Image where
  params : Params
  crews : Vector StoredCrew 48
  pools : Vector (List Nat) 16
  ladders : Vector Ladder 16
  stations : Vector StoredStation 12
  points : List StoredPoint
  idle : Vector Level 8
deriving DecidableEq, Repr

/-- The EEPROM by its validity marker (R178, R180, R185). -/
inductive Eeprom where
  /-- The marker reads as erased. -/
  | erased
  /-- The marker is invalid: a STORE began and did not complete. -/
  | invalid
  /-- The marker is valid and the tables hold `img`. -/
  | valid (img : Image)
deriving DecidableEq, Repr

/-- Store states (R187). -/
inductive StoreState where
  | idle
  | saving
deriving DecidableEq, Repr

/-- Last store results (R187). -/
inductive StoreResult where
  | none
  | ok
  | failed
deriving DecidableEq, Repr

/-- Load results (R180). -/
inductive LoadResult where
  | ok
  | blank
  | badCheck
deriving DecidableEq, Repr

/-- Reset causes (R179). -/
inductive Cause where
  | powerOn
  | resetLine
  | request
deriving DecidableEq, Repr

/-- The configuration store. -/
structure Store where
  params : Params
  state : StoreState
  lastResult : StoreResult
  loadResult : Option LoadResult
  cause : Cause
  /-- The copy a running STORE writes from (R185). -/
  copy : Option Image
  eeprom : Eeprom
  /-- The RSTN pin is low (R179). -/
  rstnLow : Bool
deriving DecidableEq, Repr

/-! ### The whole machine -/

/-- The CP-96 and the queue of the commands that wait for it. -/
structure State where
  pending : List Instr
  clock : Tick
  book : CallBook
  registry : Registry
  ladders : Vector Ladder 16
  acks : List AckEntry
  sched : Scheduler
  line : Line
  beacons : Vector Beacon 8
  link : Link
  store : Store
deriving DecidableEq, Repr

/-- The call book after a reset (R24). -/
def CallBook.reset : CallBook := ⟨[], [], 0, [], []⟩

/-- The registry until the load ends (entry 12; the values are R181's). -/
def Registry.reset : Registry := ⟨Vector.replicate 48 .undefined, Vector.replicate 16 .empty, []⟩

/-- The scheduler after a reset (R129). -/
def Scheduler.reset : Scheduler := ⟨Vector.replicate 12 .empty, Vector.replicate 4 .free, 0#8⟩

/-- The station line after a reset (R152). -/
def Line.reset : Line := ⟨Vector.replicate 12 .undefined, [], [], none⟩

/-- The host link after a reset (R177, R180). HCTS counts as deasserted until it is sampled: the model's choice
(entry 25). -/
def Link.reset : Link := ⟨.starting, .searching, [], [], none, none, false, 19200, false⟩

/-- The machine after a reset of cause `cause` (R179): every block in its reset state, with what a
reset does not touch (the waiting commands, the EEPROM, the level of RSTN) as given. -/
def State.afterReset (cause : Cause) (pending : List Instr) (eeprom : Eeprom) (rstnLow : Bool) :
    State where
  pending := pending
  clock := 0#24
  book := CallBook.reset
  registry := Registry.reset
  ladders := Vector.replicate 16 Ladder.default
  acks := []
  sched := Scheduler.reset
  line := Line.reset
  beacons := Vector.replicate 8 Beacon.released
  link := Link.reset
  store := ⟨Params.default, .idle, .none, none, cause, none, eeprom, rstnLow⟩

/-- The machine right after power-on, nothing waiting: the start-up load is under way. The erased
EEPROM, HCTS deasserted and RSTN high are the model's choices (entries 11 and 25). -/
def State.reset : State := State.afterReset .powerOn [] .erased false

end Sys2Proof.Machine
end

