-- ==== Sys2Proof/Machine/Ops.lean ====
section
/-!
DEFINITION. The shared operations under every block: the update of one block of the state, numbered
records, tick arithmetic, and the posting of records.
-/

namespace Sys2Proof.Machine

/-! ### One block replaced -/

def State.setPending (s : State) (x : List Instr) : State := { s with pending := x }
def State.setClock (s : State) (x : Tick) : State := { s with clock := x }
def State.setBook (s : State) (x : CallBook) : State := { s with book := x }
def State.setRegistry (s : State) (x : Registry) : State := { s with registry := x }
def State.setLadders (s : State) (x : Vector Ladder 16) : State := { s with ladders := x }
def State.setAcks (s : State) (x : List AckEntry) : State := { s with acks := x }
def State.setSched (s : State) (x : Scheduler) : State := { s with sched := x }
def State.setLine (s : State) (x : Line) : State := { s with line := x }
def State.setBeacons (s : State) (x : Vector Beacon 8) : State := { s with beacons := x }
def State.setLink (s : State) (x : Link) : State := { s with link := x }
def State.setStore (s : State) (x : Store) : State := { s with store := x }

/-! ### Numbered records -/

/-- Crew record `c` (R25). -/
def State.crew (s : State) (c : Nat) : Crew := row s.registry.crews c .undefined

/-- Crew record `c` replaced. -/
def State.putCrew (s : State) (c : Nat) (x : Crew) : State :=
  s.setRegistry { s.registry with crews := setRow s.registry.crews c x }

/-- Pool `p` (R35). -/
def State.pool (s : State) (p : Nat) : Pool := row s.registry.pools p .empty

/-- Pool `p` replaced. -/
def State.putPool (s : State) (p : Nat) (x : Pool) : State :=
  s.setRegistry { s.registry with pools := setRow s.registry.pools p x }

/-- Ladder `l` (R45). -/
def State.ladder (s : State) (l : Nat) : Ladder := row s.ladders l .default

/-- Station record `st` (R138). -/
def State.station (s : State) (st : Nat) : Station := row s.line.stations st .undefined

/-- Station record `st` replaced. -/
def State.putStation (s : State) (st : Nat) (x : Station) : State :=
  s.setLine { s.line with stations := setRow s.line.stations st x }

/-- The page queue of station `st` (R109). -/
def State.queue (s : State) (st : Nat) : StationQueue := row s.sched.queues st .empty

/-- The page queue of station `st` replaced. -/
def State.putQueue (s : State) (st : Nat) (x : StationQueue) : State :=
  s.setSched { s.sched with queues := setRow s.sched.queues st x }

/-- The grant record of channel group `g` (R114). -/
def State.group (s : State) (g : Nat) : Group := row s.sched.groups g .free

/-- The grant record of channel group `g` replaced. -/
def State.putGroup (s : State) (g : Nat) (x : Group) : State :=
  s.setSched { s.sched with groups := setRow s.sched.groups g x }

/-- Beacon record `z` (R153). -/
def State.beacon (s : State) (z : Nat) : Beacon := row s.beacons z .released

/-- Beacon record `z` replaced. -/
def State.putBeacon (s : State) (z : Nat) (x : Beacon) : State :=
  s.setBeacons (setRow s.beacons z x)

/-- The directory entry of a pager (R29). -/
def State.pagerEntry? (s : State) (pager : Nat) : Option PagerEntry :=
  s.registry.directory.find? (fun e => decide (e.pager = pager))

/-- The call record a number names (R1). -/
def State.findCall (s : State) (n : Nat) : Option Call :=
  s.book.calls.find? (fun c => decide (c.number = n))

/-- The call-point entry of a key (R11). -/
def State.findPoint (s : State) (station input : Nat) : Option CallPoint :=
  s.book.points.find? (fun p => decide (p.station = station ∧ p.input = input))

/-! ### Ticks (Conventions, "Tick arithmetic"; R44) -/

/-- Half the range of the clock: 2^23. -/
def halfRange : Nat := 8388608

/-- A stored tick `t` is reached at clock value `now`. -/
def reached (now t : Tick) : Bool := decide ((now - t).toNat < halfRange)

/-- The tick `n` ticks after `t`. -/
def tickAfter (t : Tick) (n : Nat) : Tick := t + BitVec.ofNat 24 n

/-- An armed tick that is reached; an unarmed one never is. -/
def dueAt (now : Tick) (t : Option Tick) : Bool :=
  match t with
  | none => false
  | some t => reached now t

/-- `x` lies strictly before `y`: the difference y − x lies in 1..2^23 − 1. -/
def earlier (x y : Tick) : Bool :=
  decide (1 ≤ (y - x).toNat ∧ (y - x).toNat < halfRange)

/-- Clamped to lo..hi (Conventions, "Numbers"). -/
def clamp (lo hi x : Nat) : Nat := if x < lo then lo else if hi < x then hi else x

/-! ### Collections -/

/-- A set keeps the order its members were added and holds no duplicate. -/
def addToSet (xs : List Nat) (x : Nat) : List Nat := if xs.contains x then xs else xs ++ [x]

/-- A list holds no value twice. -/
def distinct (xs : List Nat) : Bool := decide xs.Nodup

/-- Every number of a list lies in lo..hi. -/
def allWithin (lo hi : Nat) (xs : List Nat) : Bool := xs.all (fun x => decide (lo ≤ x ∧ x ≤ hi))

/-- Text cleaning (R10, R33): cut at `limit`, each other character replaced by '?'. -/
def cleanText (limit : Nat) (t : Text) : Text :=
  (t.take limit).map (fun c => if 0x20 ≤ c.toNat ∧ c.toNat ≤ 0x7E then c else 0x3F#8)

/-- Every member of a list in turn acts on the state. -/
def forEach {α : Type} (xs : List α) (f : α → State → State) (s : State) : State :=
  xs.foldl (fun s x => f x s) s

/-! ### Posting (R170) -/

/-- A block posts a record: appended to the notice list unless it is already there. -/
def State.post (s : State) (k : NoticeKey) : State :=
  if s.link.notices.contains k then s
  else s.setLink { s.link with notices := s.link.notices ++ [k] }

/-- A record's entry is removed from the notice list (R6). -/
def State.unpost (s : State) (k : NoticeKey) : State :=
  s.setLink { s.link with notices := s.link.notices.filter (fun x => decide (x ≠ k)) }

/-- Crew `c` replaced and posted (R26). -/
def State.changeCrew (s : State) (c : Nat) (x : Crew) : State := (s.putCrew c x).post (.crew c)

/-- Station `st` replaced and posted (R150). -/
def State.changeStation (s : State) (st : Nat) (x : Station) : State :=
  (s.putStation st x).post (.station st)

/-- HRDY (R168): asserted while the link is ONLINE or LOCAL, the reply queue holds 6 replies or fewer,
and no RESET waits for its reset. -/
def State.hrdy (s : State) : Bool :=
  decide (s.link.state ≠ .starting) && decide (s.link.replies.length ≤ 6) && !s.link.resetPending

end Sys2Proof.Machine
end

