-- ==== Sys2Proof/Machine/Beacons.lean ====
section
/-!
DEFINITION. The beacon unit (chapter 8): holder sets, the pattern and its phase; and the writing of
call records, which the beacon unit watches.
-/

namespace Sys2Proof.Machine

/-- The output level that is the idle level. -/
def Level.out : Level → OutLevel
  | .low => .low
  | .high => .high

/-- The active level is the other one (R153). -/
def Level.active : Level → OutLevel
  | .low => .high
  | .high => .low

/-- The higher of two classes. -/
def higherClass (a b : Cls) : Cls := if a.rank < b.rank then b else a

/-- The highest of a manual hold and a list of classes, if there is one. -/
def highestClass (hold : Option Cls) (xs : List Cls) : Option Cls :=
  xs.foldl (fun m c => some (match m with | none => c | some d => higherClass d c)) hold

/-- The pattern class a beacon's holders and hold call for (R155). -/
def State.wantedClass (s : State) (z : Nat) : Option Cls :=
  highestClass (s.beacon z).hold ((s.beacon z).holders.filterMap (fun n => (s.findCall n).map Call.cls))

/-- The position of a driving beacon: (clock − period start) mod 2^24 (R156). -/
def Driving.position (d : Driving) (now : Tick) : Nat := (now - d.start).toNat

/-- The level a position gives (R156). -/
def levelAt (idle : Level) (d : Driving) (now : Tick) : OutLevel :=
  if d.position now < d.onTime then idle.active else idle.out

/-- A phase restart with the pattern of class `c`: P and D are read, the period starts now and the
output goes to the active level (R156, R157). -/
def State.restartPhase (s : State) (z : Nat) (c : Cls) : State :=
  let b := s.beacon z
  let p := s.store.params.pattern.get c
  s.putBeacon z { b with
    driving := some ⟨c, p.period, p.onTime, s.clock⟩
    output := b.idle.active }

/-- The beacon unit acts on a beacon whose holder set or manual hold changed (R157). -/
def State.actBeacon (s : State) (z : Nat) : State :=
  let b := s.beacon z
  match b.driving, s.wantedClass z with
  | none, none => s
  | some _, none => s.putBeacon z { b with driving := none, output := b.idle.out }
  | none, some c => s.restartPhase z c
  | some d, some c => if d.cls = c then s else s.restartPhase z c

/-- Call `n` leaves a beacon's holder set (R154). -/
def State.leaveBeacon (s : State) (n : Nat) : Option Nat → State
  | none => s
  | some z => (s.putBeacon z
      { s.beacon z with holders := (s.beacon z).holders.filter (fun m => decide (m ≠ n)) }).actBeacon z

/-- Call `n` joins the end of a beacon's holder set (R154). -/
def State.joinBeacon (s : State) (n : Nat) : Option Nat → State
  | none => s
  | some z => (s.putBeacon z
      { s.beacon z with holders := addToSet (s.beacon z).holders n }).actBeacon z

/-- A call's held beacon has changed from `old` to `new`: the holder sets follow (R154). -/
def State.moveHolder (s : State) (n : Nat) (old new : Option Nat) : State :=
  if old = new then s else (s.leaveBeacon n old).joinBeacon n new

/-- Where call record `n` stands in a list of records, it is replaced. -/
def replaceCall (c : Call) (cs : List Call) : List Call :=
  cs.map (fun x => if x.number = c.number then c else x)

/-- A call record is written back; the beacon unit follows its held-beacon field (R154). -/
def State.putCall (s : State) (old c : Call) : State :=
  (s.setBook { s.book with calls := replaceCall c s.book.calls }).moveHolder c.number
    old.heldBeacon c.heldBeacon

/-- The call that a number names is changed and posted (R3); nothing for a number that names none. -/
def State.changeCall (s : State) (n : Nat) (f : Call → Call) : State :=
  match s.findCall n with
  | none => s
  | some c => (s.putCall c (f c)).post (.call n)

/-- The force-wide flag of a call is set; it is posted if the flag was clear (R106). -/
def State.setForceWide (s : State) (n : Nat) : State :=
  match s.findCall n with
  | none => s
  | some c => if c.forceWide then s else s.changeCall n (fun c => { c with forceWide := true })

/-- The tick of a driving beacon (R156): a period that has run out starts again, and the output takes
the level its position gives. -/
def State.beaconTick (s : State) (z : Nat) : State :=
  let b := s.beacon z
  match b.driving with
  | none => s
  | some d =>
    let d' := if d.period ≤ d.position s.clock then { d with start := s.clock } else d
    s.putBeacon z { b with driving := some d', output := levelAt b.idle d' s.clock }

/-- BEACON_PERIOD_END: the position of a driving beacon has reached P (R156). -/
def execBeaconPeriodEnd (z : Nat) (s : State) : Host.Outcome State Fault Refusal :=
  match (s.beacon z).driving with
  | none => .next s
  | some d => if d.period ≤ d.position s.clock then .next (s.beaconTick z) else .next s

/-- BEACON_ON_TIME_END: the position of a driving beacon has reached D, within its period (R156). -/
def execBeaconOnTimeEnd (z : Nat) (s : State) : Host.Outcome State Fault Refusal :=
  match (s.beacon z).driving with
  | none => .next s
  | some d =>
    if d.onTime ≤ d.position s.clock ∧ d.position s.clock < d.period then .next (s.beaconTick z)
    else .next s

end Sys2Proof.Machine
end

