-- ==== Sys2Proof/Machine/Airtime.lean ====
section
/-!
DEFINITION. The airtime scheduler (chapter 6): page queues, the air grant of each channel group, and
the settling of bursts.
-/

namespace Sys2Proof.Machine

/-! ### The page queue (6.1, 6.2) -/

/-- The key of an item is its pager, call and kind; two items with the same key are equal (R108). -/
def Item.same (a b : Item) : Bool := decide (a.pager = b.pager ∧ a.call = b.call ∧ a.kind = b.kind)

/-- The item asks a question: PAGE or REPAGE. -/
def Item.asks (i : Item) : Bool := decide (i.kind = .page ∨ i.kind = .repage)

/-- The waiting items in queue order: return part, then ordered part (R109). -/
def StationQueue.waiting (q : StationQueue) : List Item := q.returned ++ q.ordered

/-- The items of the in-flight burst. -/
def StationQueue.flying (q : StationQueue) : List Item :=
  match q.flight with
  | none => []
  | some b => b.items

/-- The count of a station (R109). -/
def StationQueue.count (q : StationQueue) : Nat := q.waiting.length + q.flying.length

/-- A waiting item keeps its place and class and takes the new copy's text and attempt index (R110). -/
def mergeInto (copy : Item) (xs : List Item) : List Item :=
  xs.map (fun x => if x.same copy then { x with text := copy.text, attempt := copy.attempt } else x)

/-- A copy goes in after every item of its class or higher and before the first of a lower class
(R110). -/
def insertByClass (copy : Item) : List Item → List Item
  | [] => [copy]
  | x :: xs => if x.cls.rank < copy.cls.rank then copy :: x :: xs else x :: insertByClass copy xs

/-- The tail of the queue: the last of the ordered part, or of the return part when that is empty
(R109). -/
def StationQueue.tail? (q : StationQueue) : Option Item :=
  match q.ordered.getLast? with
  | some i => some i
  | none => q.returned.getLast?

/-- The queue without its tail. -/
def StationQueue.dropTail (q : StationQueue) : StationQueue :=
  if q.ordered = [] then { q with returned := q.returned.dropLast }
  else { q with ordered := q.ordered.dropLast }

/-- What placing a copy does to a queue: the queue after it, and the item lost, if one was (R110,
R111). -/
def StationQueue.accept (q : StationQueue) (copy : Item) : StationQueue × Option Item :=
  if q.waiting.any (fun x => x.same copy) then
    ({ q with returned := mergeInto copy q.returned, ordered := mergeInto copy q.ordered }, none)
  else if q.count < Config.queueCap then
    ({ q with ordered := insertByClass copy q.ordered }, none)
  else
    match q.tail? with
    | none => (q, some copy)
    | some t =>
      if t.cls.rank < copy.cls.rank then
        let q' := q.dropTail
        ({ q' with ordered := insertByClass copy q'.ordered }, some t)
      else (q, some copy)

/-! ### The air grant (6.3, 6.5) -/

/-- A station qualifies for the grant of group `g` (R115). -/
def State.qualifies (s : State) (g st : Nat) : Bool :=
  let x := s.station st
  let q := s.queue st
  x.defined && decide (x.group = g) && decide (x.service = .inService ∨ x.service = .suspect) &&
    decide (q.waiting ≠ []) && !q.waitIdle

/-- The station numbers after `last` up to 12 and then from 1 up to before `last` (R116). -/
def searchOrder (last : Nat) : List Nat :=
  List.range' (last + 1) (12 - last) ++ List.range' 1 (last - 1)

/-- The grant of group `g` is given to `st` with consecutive-grant count `n`; its BURST exchange waits
at the line (R116). -/
def State.giveGrant (s : State) (g st n : Nat) : State :=
  let s := s.putGroup g { s.group g with holder := some st, last := st, consecutive := n }
  let s := s.putQueue st { s.queue st with phase := .granted }
  s.setLine { s.line with burstWaits := s.line.burstWaits ++ [st] }

/-- The arbiter of group `g` (R116): gives a free grant to a station that qualifies, if there is one. -/
def State.arbitrate (s : State) (g : Nat) : State :=
  let r := s.group g
  if r.holder ≠ none then s
  else if s.qualifies g r.last && decide (r.consecutive < s.store.params.stayLimit) then
    s.giveGrant g r.last (r.consecutive + 1)
  else
    match (searchOrder r.last).find? (fun st => s.qualifies g st) with
    | some st => s.giveGrant g st 1
    | none =>
      if s.qualifies g r.last then s.giveGrant g r.last s.store.params.stayLimit else s

/-- A station gives up the grant of its group if it holds it: the holder becomes none, the airtime
deadline is cleared, the phase becomes NONE and a waiting BURST exchange is withdrawn (R121, R123,
R137). -/
def State.releaseGrant (s : State) (st : Nat) : State :=
  let g := (s.station st).group
  if (s.group g).holder = some st then
    let s := s.putGroup g { s.group g with holder := none, deadline := none }
    let s := s.putQueue st { s.queue st with phase := .none }
    s.setLine { s.line with burstWaits := s.line.burstWaits.filter (fun x => decide (x ≠ st)) }
  else s

/-! ### Placing, withdrawing, flushing -/

/-- A lost item widens its call when it is a PAGE or REPAGE and its number names a record (R111). -/
def State.loseItem (s : State) : Option Item → State
  | none => s
  | some i => if i.asks then s.setForceWide i.call else s

/-- A copy is placed in the queue of one station, and its group's arbiter acts (R110, R111, R116). -/
def State.place (copy : Item) (st : Nat) (s : State) : State :=
  let r := (s.queue st).accept copy
  ((s.putQueue st r.1).loseItem r.2).arbitrate (s.station st).group

/-- The queue less the waiting PAGE and REPAGE items of call `n` (R112). -/
def StationQueue.withdraw (n : Nat) (q : StationQueue) : StationQueue :=
  let keep := fun (i : Item) => !(i.asks && decide (i.call = n))
  { q with returned := q.returned.filter keep, ordered := q.ordered.filter keep }

/-- An acceptance or a close withdraws the pages of its call from every queue (R112). -/
def State.withdrawPages (s : State) (n : Nat) : State :=
  s.setSched { s.sched with queues := s.sched.queues.map (StationQueue.withdraw n) }

/-- A flushed PAGE or REPAGE widens its call when the number names an open call (R123). -/
def State.widenIfOpen (i : Item) (s : State) : State :=
  if i.asks then
    match s.findCall i.call with
    | none => s
    | some c => if c.state = .closed then s else s.setForceWide i.call
  else s

/-- A station leaving service loses its whole queue and its grant (R123). -/
def State.flush (s : State) (st : Nat) : State :=
  let q := s.queue st
  let lost := q.waiting ++ q.flying
  let s := s.releaseGrant st
  let s := s.putQueue st .empty
  (forEach lost State.widenIfOpen s).arbitrate (s.station st).group

/-! ### Bursts (6.4) -/

/-- A returned item is discarded when it is a PAGE or REPAGE whose call is not in the book or not
PAGING (R119). -/
def State.stale (s : State) (i : Item) : Bool :=
  i.asks &&
    match s.findCall i.call with
    | none => true
    | some c => decide (c.state ≠ .paging)

/-- A returned item takes the text and attempt index of an equal waiting item (R119). -/
def takeNewer (waiting : List Item) (i : Item) : Item :=
  match waiting.find? (fun w => w.same i) with
  | none => i
  | some w => { i with text := w.text, attempt := w.attempt }

/-- Items of a burst return to the head of the queue (R119): each merged with an equal waiting item,
which is removed. -/
def StationQueue.giveBack (q : StationQueue) (items : List Item) : StationQueue :=
  let kept := fun (w : Item) => !items.any (fun i => i.same w)
  { q with
    returned := items.map (takeNewer q.waiting) ++ q.returned.filter kept
    ordered := q.ordered.filter kept
    flight := none }

/-- The in-flight items of a station return (R119). -/
def State.returnItems (s : State) (st : Nat) : State :=
  let q := s.queue st
  s.putQueue st (q.giveBack (q.flying.filter (fun i => !s.stale i)))

/-- The wait-for-idle mark of a station is written. -/
def State.setWaitIdle (s : State) (st : Nat) (b : Bool) : State :=
  s.putQueue st { s.queue st with waitIdle := b }

/-- A burst was refused or went unanswered: the grant is released, the mark set, the items returned,
and the group's arbiter acts (R118). -/
def State.burstFailed (s : State) (st : Nat) : State :=
  (((s.releaseGrant st).returnItems st).setWaitIdle st true).arbitrate (s.station st).group

/-- A burst was taken: its items are sent, the station is ON_AIR and the airtime deadline is armed
(R118). -/
def State.burstTaken (s : State) (st : Nat) : State :=
  let s := s.putQueue st { s.queue st with flight := none, phase := .onAir }
  let g := (s.station st).group
  s.putGroup g { s.group g with
    deadline := some (tickAfter s.clock s.store.params.airtimeLimit) }

/-- A poll reply shows the transmitter of a station idle or busy (R121). -/
def State.transmitterSeen (s : State) (st : Nat) (busy : Bool) : State :=
  if busy then s
  else
    let s := if (s.queue st).phase = .onAir then s.releaseGrant st else s
    (s.setWaitIdle st false).arbitrate (s.station st).group

/-- The burst a granted station's exchange forms: up to six items from the head of its queue, with the
next burst id (R117). -/
def State.formBurst (s : State) (st : Nat) : State × Burst :=
  let q := s.queue st
  let items := q.waiting.take Config.burstCap
  let b : Burst := ⟨s.sched.burstId, items⟩
  let s := s.putQueue st { q with
    returned := q.returned.drop Config.burstCap
    ordered := q.ordered.drop (Config.burstCap - q.returned.length)
    flight := some b
    phase := .inFlight }
  (s.setSched { s.sched with burstId := s.sched.burstId + 1 }, b)

end Sys2Proof.Machine
end

