-- ==== Sys2Proof/Machine/Locator.lean ====
section
/-!
DEFINITION. The locator (chapter 5): locations, freshness, the choice of stations for a page item, and
the handing of items to the airtime scheduler.
-/

namespace Sys2Proof.Machine

/-! ### Locations (5.1) -/

/-- A record's position against a stored location (R96). -/
def updateLocation (stored : Option Location) (new : Location) : Option Location :=
  match stored with
  | none => some new
  | some old =>
    let d := (new.heard - old.heard).toNat
    if 17 ≤ d ∧ d < halfRange then some new
    else if (d ≤ 16 ∨ 2 ^ 24 - 16 ≤ d) ∧ old.quality < new.quality then some new
    else some old

/-- The locator takes a record's position for a pager with a directory entry (R75, R96). -/
def State.seePager (s : State) (pager : Nat) (l : Location) : State :=
  s.setRegistry { s.registry with directory := s.registry.directory.map (fun e =>
    if e.pager = pager then { e with location := updateLocation e.location l } else e) }

/-- A location whose age has reached 2^23 is made absent (R97). -/
def ageLocation (now : Tick) (e : PagerEntry) : PagerEntry :=
  match e.location with
  | none => e
  | some l => if halfRange ≤ (now - l.heard).toNat then { e with location := none } else e

/-- LOCATION_EXPIRY: the tick's ageing out of locations (R97). -/
def execLocationExpiry (s : State) : Host.Outcome State Fault Refusal :=
  .next (s.setRegistry { s.registry with
    directory := s.registry.directory.map (ageLocation s.clock) })

/-! ### Freshness and station sets (5.2, 5.3) -/

/-- A station is usable: defined, and IN_SERVICE or SUSPECT (R101). -/
def State.usable (s : State) (st : Nat) : Bool :=
  (s.station st).defined &&
    decide ((s.station st).service = .inService ∨ (s.station st).service = .suspect)

/-- The station of a pager's location when the location is fresh (R98). -/
def State.freshStation (s : State) (pager : Nat) : Option Nat :=
  match (s.pagerEntry? pager).bind PagerEntry.location with
  | none => none
  | some l =>
    if (s.clock - l.heard).toNat ≤ s.store.params.freshness * 8 ∧ s.usable l.station then
      some l.station
    else none

/-- The all-stations set: every usable station, in ascending station number (R101). -/
def State.allStations (s : State) : List Nat := (List.range' 1 12).filter (fun st => s.usable st)

/-- The first-repeat set around station `st`: it and its usable neighbours, in ascending station number
(R101). -/
def State.firstRepeatSet (s : State) (st : Nat) : List Nat :=
  s.allStations.filter (fun x => decide (x = st) || (s.station st).neighbours.contains x)

/-- The station set of a PAGE or REPAGE item (R102). -/
def State.pageStations (s : State) (i : Item) (forceWide : Bool) : List Nat :=
  if i.cls = .emergency ∨ forceWide then s.allStations
  else
    match s.freshStation i.pager with
    | none => s.allStations
    | some st =>
      if i.attempt = 0 then [st]
      else if i.attempt = 1 then s.firstRepeatSet st
      else s.allStations

/-- The station set of a STAND_DOWN or CLOSE_NOTE item (R103). -/
def State.noteStations (s : State) (i : Item) : List Nat :=
  match s.freshStation i.pager with
  | none => s.allStations
  | some st => s.firstRepeatSet st

/-- The station set the locator chooses for an item (R102, R103). -/
def State.chooseStations (s : State) (i : Item) : List Nat :=
  if i.asks then
    s.pageStations i (match s.findCall i.call with
      | none => false
      | some c => c.forceWide)
  else s.noteStations i

/-- An item is handed to the locator and on to the scheduler (R104); with no usable station a PAGE or
REPAGE widens its call and a note is dropped (R105). -/
def State.produce (i : Item) (s : State) : State :=
  match s.chooseStations i with
  | [] => if i.asks then s.setForceWide i.call else s
  | sts => forEach sts (State.place i) s

/-- A PAGE or REPAGE item of a call for a pager, with the call's class and text (R55, R59). -/
def pageItem (kind : ItemKind) (attempt : Nat) (c : Call) (pager : Nat) : Item :=
  ⟨pager, c.number, kind, c.cls, c.text, attempt⟩

/-- The items of a call for every member pager of each crew, crews in order, members in order (R25,
R55). -/
def State.sendToCrews (s : State) (mk : Nat → Item) (crews : List Nat) : State :=
  forEach (crews.flatMap (fun c => (s.crew c).members)) (fun pager => State.produce (mk pager)) s

end Sys2Proof.Machine
end

