-- ==== Sys2Proof/Machine/Engine.lean ====
section
/-!
DEFINITION. The escalation engine (chapter 3): the pool choices of the registry, step starts, repeats,
declines, the advance, and the expiries of a call's deadlines.
-/

namespace Sys2Proof.Machine

/-! ### Choices from a pool (2.5) -/

/-- A crew is eligible for a choice made for a call with these step targets and declined set (R36). -/
def State.eligible (s : State) (targets declined : List Nat) (c : Nat) : Bool :=
  let x := s.crew c
  x.defined && decide (x.duty = .onDuty) && decide (x.accepted = []) && !targets.contains c &&
    !declined.contains c

/-- The positions of a pool's list with their crews, from the position after the pointer round to the
pointer's own (R37). -/
def searchFrom (p : Pool) : List (Nat × Nat) :=
  let numbered := (List.range' 1 p.crews.length).zip p.crews
  numbered.drop p.pointer ++ numbered.take p.pointer

/-- A choice of one crew from a pool: the crew, and the pool with its pointer moved (R37). -/
def State.chooseOne (s : State) (p : Nat) (targets declined : List Nat) : Option Nat × State :=
  match (searchFrom (s.pool p)).find? (fun x => s.eligible targets declined x.2) with
  | none => (none, s)
  | some x => (some x.2, s.putPool p { s.pool p with pointer := x.1 })

/-- A choice of all crews from a pool, in list order (R38). -/
def State.chooseAll (s : State) (p : Nat) (targets declined : List Nat) : List Nat :=
  (s.pool p).crews.filter (fun c => s.eligible targets declined c)

/-! ### Window, repeat and arrival arithmetic (3.4) -/

/-- The window of `seconds` under class factor `f`, in ticks (R56, R58). -/
def windowTicks (seconds f : Nat) : Nat := clamp 40 14400 (seconds * f)

/-- The effective repeats of a step of window `w` and repeat count `r` (R57). -/
def effectiveRepeats (w r : Nat) : Nat :=
  if 24 ≤ w / (r + 1) then r else min r (w / 24 - 1)

/-- The repeat interval of a step of window `w` and repeat count `r` (R57). -/
def repeatInterval (w r : Nat) : Nat := w / (effectiveRepeats w r + 1)

/-- The class factor of a class (R182). -/
def State.factor (s : State) (c : Cls) : Nat := s.store.params.factor.get c

/-! ### Step starts (3.3) -/

/-- The bookkeeping of a step start: index `i`, window and repeats from base window `b` and repeat count
`r` (R51, R56, R57). -/
def stepBookkeeping (now : Tick) (f i b r : Nat) (c : Call) : Call :=
  let w := windowTicks b f
  let n := repeatInterval w r
  let k := effectiveRepeats w r
  { c with
    stepIndex := i
    stepPool := none
    directed := false
    referred := false
    forceWide := false
    targets := []
    declined := []
    stepStart := now
    window := w
    interval := n
    repeats := k
    stepDeadline := some (tickAfter now w)
    nextRepeat := if 1 ≤ k then some (tickAfter now n) else none
    attempts := 1 }

/-- What a step resolves to: its target crews, its step pool, whether it is a referral, and whether it
is empty (R52). -/
structure Resolved where
  targets : List Nat
  pool : Option Nat
  referred : Bool
  empty : Bool
deriving DecidableEq, Repr

/-- A CREW step: the crew, when it is defined and ON_DUTY (R52). -/
def State.resolveCrew (s : State) (c : Nat) : Resolved :=
  if (s.crew c).defined ∧ (s.crew c).duty = .onDuty then ⟨[c], none, false, false⟩
  else ⟨[], none, false, true⟩

/-- The targets of a step by its kind, both sets of the call being empty (R52). A pool choice moves the
pool's pointer. -/
def State.resolveStep (s : State) : StepKind → Resolved × State
  | .crew c => (s.resolveCrew c, s)
  | .poolOne p =>
    let r := s.chooseOne p [] []
    (⟨r.1.toList, some p, false, decide (r.1 = none)⟩, r.2)
  | .poolAll p =>
    let cs := s.chooseAll p [] []
    (⟨cs, none, false, decide (cs = [])⟩, s)
  | .refer =>
    let online := decide (s.link.state = .online)
    (⟨[], none, online, !online⟩, s)
  | .noTarget => (⟨[], none, false, false⟩, s)

/-- A step that is not empty completes its start: targets, paged set, pages, beacon, posting (R55). -/
def State.completeStep (s : State) (n : Nat) (targets : List Nat) (beacon : Option Nat) : State :=
  let s := s.changeCall n (fun c => { c with
    targets := targets
    paged := targets.foldl addToSet c.paged })
  let s := match s.findCall n with
    | none => s
    | some c => s.sendToCrews (pageItem .page 0 c) targets
  match beacon with
  | none => s
  | some z => s.changeCall n (fun c => { c with heldBeacon := some z })

/-- The call becomes EXHAUSTED (R65). All that R65 does not name stands as the step it left gave it; an empty step
has no step pool to leave (R54, `State.startStep`). After a chain of empty steps the window, interval, effective
repeats, step start and attempts stand as the last of them gave them: the model's choice (entry 31). -/
def State.exhaust (s : State) (n : Nat) (beacon : Option Nat) : State :=
  s.changeCall n (fun c => { c with
    state := .exhausted
    stepDeadline := none
    nextRepeat := none
    directed := false
    referred := false
    heldBeacon := match beacon with | none => c.heldBeacon | some z => some z })

/-- Step `i` of its ladder starts for call `n`, resolved with crew `preferred` in place of the step's own
target when there is one (R51 to R55); `advance` is what an empty step does. The step pool of an empty step is cleared,
since the step that follows overwrites it and exhaustion clears it, and nothing reads it in between (R54). -/
def State.startStep (advance : State → State) (n i : Nat) (preferred : Option Nat) (s : State) : State :=
  match s.findCall n with
  | none => s
  | some c =>
    let st := (s.ladder c.ladder).steps.getD (i - 1) .default
    let s := s.changeCall n (stepBookkeeping s.clock (s.factor c.cls) i st.window st.repeats)
    let r := match preferred with
      | none => s.resolveStep st.kind
      | some p => (s.resolveCrew p, s)
    let s := r.2.changeCall n (fun c => { c with
      stepPool := if r.1.empty then none else r.1.pool
      referred := r.1.referred })
    if r.1.empty then advance s else s.completeStep n r.1.targets st.beacon

/-- The advance of call `n` (R63): the next step, a restart (R64) or exhaustion (R65). The first argument
bounds the chain of empty steps (R54). -/
def State.advance : Nat → Nat → State → State
  | 0, _, s => s
  | fuel + 1, n, s =>
    match s.findCall n with
    | none => s
    | some c =>
      let lad := s.ladder c.ladder
      let i := c.stepIndex + 1
      let s := s.changeCall n (fun c => { c with
        stepDeadline := none
        nextRepeat := none
        state := .paging })
      if i ≤ lad.steps.length then State.startStep (State.advance fuel n) n i none s
      else if c.restarts < lad.restartLimit then
        State.startStep (State.advance fuel n) n 1 none
          (s.changeCall n (fun c => { c with restarts := c.restarts + 1 }))
      else s.exhaust n lad.exhaustBeacon

/-- The advance, with room for the longest chain of empty steps (R54, R63). -/
def State.advanceCall (s : State) (n : Nat) : State := State.advance Config.chainLimit n s

/-- The first step start of a new call (R8, R53). -/
def State.startCall (s : State) (n : Nat) (preferred : Option Nat) : State :=
  State.startStep (State.advance Config.chainLimit n) n 1 preferred s

/-- A directed step to crew `crew` for a PAGING or EXHAUSTED call (R70). -/
def State.directStep (s : State) (n crew b r : Nat) : State :=
  match s.findCall n with
  | none => s
  | some c =>
    let i := if c.state = .exhausted then (s.ladder c.ladder).steps.length else c.stepIndex
    let s := s.changeCall n (fun c =>
      { stepBookkeeping s.clock (s.factor c.cls) i b r c with directed := true, state := .paging })
    s.completeStep n [crew] none

/-! ### Declines (3.5) -/

/-- The step targets not in the declined set, in target order. -/
def Call.undeclined (c : Call) : List Nat := c.targets.filter (fun x => !c.declined.contains x)

/-- The replacement choice of a decline: a crew from the step pool while the step targets hold fewer than
8 crews (R61). -/
def State.replacement (s : State) (c : Call) : Option Nat × State :=
  match c.stepPool with
  | none => (none, s)
  | some p =>
    if c.targets.length < Config.maxTargets then s.chooseOne p c.targets c.declined else (none, s)

/-- The engine acts on a decline of crew `crew` for call `n` (R61, R62). -/
def State.engineDecline (s : State) (n crew : Nat) : State :=
  match s.findCall n with
  | none => s
  | some c0 =>
    if c0.declined.contains crew then s
    else
      let s := s.changeCall n (fun c => { c with declined := c.declined ++ [crew] })
      let c1 := { c0 with declined := c0.declined ++ [crew] }
      let r := s.replacement c1
      match r.1 with
      | some x =>
        let s := r.2.changeCall n (fun c => { c with
          targets := addToSet c.targets x
          paged := addToSet c.paged x })
        s.sendToCrews (pageItem .page 0 c1) [x]
      | none => if c1.undeclined = [] then r.2.advanceCall n else r.2

/-! ### Expiries (3.5, 3.6, 3.9) -/

/-- The repeat of a PAGING call (R59). -/
def State.sendRepeat (s : State) (c : Call) : State :=
  let k := c.attempts
  let s := s.sendToCrews (pageItem .repage k c) c.undeclined
  s.changeCall c.number (fun c => { c with
    attempts := k + 1
    nextRepeat :=
      if k + 1 ≤ c.repeats then some (tickAfter c.stepStart ((k + 1) * c.interval)) else none })

/-- A call leaves a crew's accepted list, and the crew is posted (R31). -/
def State.leaveCrew (s : State) (n crew : Nat) : State :=
  s.changeCrew crew
    { s.crew crew with accepted := (s.crew crew).accepted.filter (fun m => decide (m ≠ n)) }

/-- The accepting crew of a call whose arrival deadline is reached is released, and the call is PAGING
again (R71). -/
def State.releaseCrew (s : State) (c : Call) : State :=
  let s := s.changeCall c.number (fun c => { c with
    arrivalDeadline := none
    accepting := none
    state := .paging })
  match c.accepting with
  | none => s
  | some a => s.leaveCrew c.number a

/-! ### The site clock (3.1) -/

/-- SITE_CLOCK_TICK: the site clock rises by one, and from 16,777,215 goes to 0 (R43). It stands at 0
while the controller is held in reset (R179). -/
def execSiteClockTick (s : State) : Host.Outcome State Fault Refusal :=
  if s.store.rstnLow then .next s else .next (s.setClock (s.clock + 1))

/-! ### Entry to LOCAL (3.7) -/

/-- A call that is PAGING with its referred flag set is advanced (R67). -/
def State.advanceReferred (n : Nat) (s : State) : State :=
  match s.findCall n with
  | none => s
  | some c => if c.state = .paging ∧ c.referred then s.advanceCall n else s

/-- On entry to LOCAL the referred calls are advanced, in ascending call number (R67). -/
def State.advanceAllReferred (s : State) : State :=
  forEach (s.book.calls.map Call.number) State.advanceReferred s

end Sys2Proof.Machine
end

