-- ==== Sys2Proof/Machine/Book.lean ====
section
/-!
DEFINITION. The call book (chapter 1): numbers, records and eviction, raising, presses, and closing.
-/

namespace Sys2Proof.Machine

/-! ### Numbers and records (1.3) -/

/-- The number `k` places after the counter: after 65535 counting continues at 1 (R4). -/
def numberAfter (counter k : Nat) : Nat := (counter + k) % 65535 + 1

/-- The first number after the counter that no record in the book carries (R4). Among 97 numbers in a
row one is free, since the book holds at most 96 records. -/
def CallBook.nextNumber (b : CallBook) : Nat :=
  let candidates := (List.range 97).map (numberAfter b.counter)
  (candidates.find? (fun n => !(b.calls.map Call.number).contains n)).getD (numberAfter b.counter 0)

/-- A record goes in at its place in ascending call number. -/
def insertCall (c : Call) : List Call → List Call
  | [] => [c]
  | x :: xs => if c.number < x.number then c :: x :: xs else x :: insertCall c xs

/-- A frame that was to free call `n` frees it no longer. -/
def Frame.forget (n : Nat) (f : Frame) : Frame :=
  if f.frees = some n then { f with frees := none } else f

/-- A record leaves the book: its slot becomes free and its number leaves the book, its entry on the
notice list is removed, and a frame that is being sent of it frees nothing (R6, R7, R171). -/
def State.removeCall (s : State) (n : Nat) : State :=
  let s := s.setBook { s.book with
    calls := s.book.calls.filter (fun c => decide (c.number ≠ n))
    closedOrder := s.book.closedOrder.filter (fun m => decide (m ≠ n)) }
  let s := s.unpost (.call n)
  s.setLink { s.link with sending := s.link.sending.map (Frame.forget n) }

/-- A slot for a new call: a free one, or that of the CLOSED record that closed earliest, which is
evicted; none when there is neither (R5). -/
def State.obtainSlot (s : State) : Option State :=
  if s.book.calls.length < Config.maxCalls then some s
  else
    match s.book.closedOrder with
    | [] => none
    | n :: _ => some (s.removeCall n)

/-! ### Raising (1.4) -/

/-- The values of a new call record (R8). -/
def newCall (n : Nat) (source : CallSource) (origin : Nat) (cls : Cls) (ladder : Nat) (text : Text)
    (preferred : Option Nat) (now : Tick) : Call where
  number := n
  state := .paging
  reason := none
  source := source
  origin := origin
  cls := cls
  ladder := ladder
  text := text
  preferred := preferred
  stepIndex := 1
  directed := false
  stepPool := none
  restarts := 0
  stepStart := now
  window := 0
  interval := 0
  repeats := 0
  attempts := 0
  stepDeadline := none
  nextRepeat := none
  arrivalDeadline := none
  targets := []
  declined := []
  paged := []
  accepting := none
  raiseTick := now
  acceptTick := none
  onSceneTick := none
  referred := false
  forceWide := false
  heldBeacon := none
  presses := 0
  closeTick := none

/-- A record is created in the slot obtained, numbered and posted (R3, R4, R8). -/
def State.addCall (s : State) (c : Call) : State :=
  (s.setBook { s.book with
    calls := insertCall c s.book.calls
    counter := c.number }).post (.call c.number)

/-- The call point of a key takes a state (R11). -/
def State.setPoint (s : State) (station input : Nat) (x : PointState) : State :=
  s.setBook { s.book with points := s.book.points.map (fun p =>
    if p.station = station ∧ p.input = input then { p with state := x } else p) }

/-- A press raises the call of an entry in the slot obtained (R14, R17). -/
def State.raiseFromPoint (s : State) (p : CallPoint) : State :=
  let n := s.book.nextNumber
  let c := newCall n (.callPoint p.station p.input) p.station p.cls p.ladder p.text none s.clock
  ((s.addCall c).setPoint p.station p.input (.opened n)).startCall n none

/-- A press at an OPEN entry acts on its call (R15). -/
def State.pressOpen (s : State) (n : Nat) : State :=
  match s.findCall n with
  | none => s
  | some c =>
    let s := s.changeCall n (fun c => { c with presses := min 255 (c.presses + 1) })
    if c.state = .paging then s.advanceCall n else s

/-- A press from the station line at the key (station, input) (R13 to R16). -/
def State.press (s : State) (station input : Nat) : State :=
  match s.findPoint station input with
  | none => s
  | some p =>
    match p.state with
    | .idle =>
      match s.obtainSlot with
      | some s' => s'.raiseFromPoint p
      | none =>
        let s := s.setPoint station input .pending
        s.setBook { s.book with pendingPresses := s.book.pendingPresses ++ [(station, input)] }
    | .opened n => s.pressOpen n
    | .pending => s

/-- The oldest waiting press is served in the slot of the CLOSED record that closed earliest (R17). -/
def State.servePending (s : State) : State :=
  match s.book.pendingPresses with
  | [] => s
  | key :: rest =>
    let s := match s.book.closedOrder with
      | [] => s
      | n :: _ => s.removeCall n
    let s := s.setBook { s.book with pendingPresses := rest }
    match s.findPoint key.1 key.2 with
    | none => s
    | some p => s.raiseFromPoint p

/-! ### Closing (1.5) -/

/-- The close reason as a note's text: CLEARED, CANCELLED or DONE_BY_CREW (R108). -/
def CloseReason.text : CloseReason → Text
  | .cleared => [0x43#8, 0x4C#8, 0x45#8, 0x41#8, 0x52#8, 0x45#8, 0x44#8]
  | .cancelled => [0x43#8, 0x41#8, 0x4E#8, 0x43#8, 0x45#8, 0x4C#8, 0x4C#8, 0x45#8, 0x44#8]
  | .doneByCrew => [0x44#8, 0x4F#8, 0x4E#8, 0x45#8, 0x5F#8, 0x42#8, 0x59#8, 0x5F#8, 0x43#8, 0x52#8,
      0x45#8, 0x57#8]

/-- A CLOSE_NOTE item of a call closed for reason `r` (R20, R108). -/
def closeNote (r : CloseReason) (c : Call) (pager : Nat) : Item :=
  ⟨pager, c.number, .closeNote, c.cls, r.text, 0⟩

/-- The crews that receive close notes: the acceptor, unless it is done, and the undeclined targets
other than the acceptor (R20). -/
def notedCrews (r : CloseReason) (c : Call) : List Nat :=
  (if r = .doneByCrew then [] else c.accepting.toList) ++
    c.undeclined.filter (fun x => decide (c.accepting ≠ some x))

/-- The effects of a close on the call's pages, crews and record (R20). -/
def State.closeRecord (s : State) (r : CloseReason) (c : Call) : State :=
  let s := s.withdrawPages c.number
  let s := s.sendToCrews (closeNote r c) (notedCrews r c)
  let s := match c.accepting with
    | none => s
    | some a => s.leaveCrew c.number a
  let s := s.changeCall c.number (fun c => { c with
    accepting := none
    stepDeadline := none
    nextRepeat := none
    arrivalDeadline := none
    heldBeacon := none
    closeTick := some s.clock
    state := .closed
    reason := some r })
  s.setBook { s.book with closedOrder := s.book.closedOrder ++ [c.number] }

/-- The call point of a closed call returns to IDLE when it is OPEN with that call (R21). -/
def State.settlePoint (s : State) (c : Call) : State :=
  match c.source with
  | .plantComputer => s
  | .callPoint st i =>
    match s.findPoint st i with
    | none => s
    | some p => if p.state = .opened c.number then s.setPoint st i .idle else s

/-- A call is closed for reason `r` (R20, R21). -/
def State.closeCall (s : State) (r : CloseReason) (n : Nat) : State :=
  match s.findCall n with
  | none => s
  | some c => ((s.closeRecord r c).settlePoint c).servePending

end Sys2Proof.Machine
end

