-- ==== Sys2Proof/Machine/Acks.lean ====
section
/-!
DEFINITION. The acknowledgement unit (chapter 4): the taking of an ACK record, the recent list, and the
effect of each kind on a call.
-/

namespace Sys2Proof.Machine

/-- An ACK floor record as the station line hands it over (R73). -/
structure AckRecord where
  pager : Nat
  call : Nat
  kind : AckKind
  quality : Nat
  age : Nat
deriving DecidableEq, Repr

/-! ### The recent-acknowledgement list (4.2) -/

/-- The dedupe window D in ticks (R76). -/
def State.dedupeTicks (s : State) : Nat := s.store.params.dedupe * 8

/-- The age of an entry at a clock value (R76). -/
def AckEntry.age (now : Tick) (e : AckEntry) : Nat := (now - e.heard).toNat

/-- Entries and records with the same pager, call and kind (R77). -/
def AckEntry.sameKey (a b : AckEntry) : Bool :=
  decide (a.pager = b.pager ∧ a.call = b.call ∧ a.kind = b.kind)

/-- An entry goes in after every entry whose heard tick is the same as its own or earlier, judged by age
(R77). -/
def insertAck (now : Tick) (e : AckEntry) : List AckEntry → List AckEntry
  | [] => [e]
  | x :: xs => if e.age now ≤ x.age now then x :: insertAck now e xs else e :: x :: xs

/-- An effective record is entered in the list: not when it is already outside the window, nor when the
list is full and it is earlier than every entry (R77). -/
def enterAck (now : Tick) (window : Nat) (e : AckEntry) (acks : List AckEntry) : List AckEntry :=
  if window < e.age now then acks
  else if acks.length < Config.maxAcks then insertAck now e acks
  else if acks.all (fun x => decide (x.age now < e.age now)) then acks
  else insertAck now e (acks.drop 1)

/-- DEDUPE_ENTRY_EXPIRY: every entry whose age exceeds the dedupe window is removed (R76). -/
def execDedupeEntryExpiry (s : State) : Host.Outcome State Fault Refusal :=
  .next (s.setAcks (s.acks.filter (fun e => decide (e.age s.clock ≤ s.dedupeTicks))))

/-! ### Acceptance (4.4) -/

/-- A STAND_DOWN item of a call for a pager, carrying the accepting crew's name (R82). -/
def standDown (c : Call) (name : Text) (pager : Nat) : Item :=
  ⟨pager, c.number, .standDown, c.cls, name, 0⟩

/-- The crews that are sent stand-downs at an acceptance by `crew`, in paged-set order (R82). -/
def stoodDown (c : Call) (crew : Nat) : List Nat :=
  c.paged.filter (fun x => decide (x ≠ crew) && !c.declined.contains x)

/-- Crew `crew` has room for another call (R30). -/
def State.hasRoom (s : State) (crew : Nat) : Bool :=
  decide ((s.crew crew).accepted.length < Config.maxAccepted)

/-- The arrival window of a call in ticks (R58). -/
def State.arrivalWindow (s : State) (c : Call) : Nat :=
  windowTicks (s.ladder c.ladder).arrival (s.factor c.cls)

/-- The acceptance of call `c` by crew `crew` at heard tick `heard` (R81). -/
def State.acceptCall (s : State) (c : Call) (crew : Nat) (heard : Tick) : State :=
  let s := s.changeCall c.number (fun c => { c with
    state := .accepted
    accepting := some crew
    acceptTick := some heard
    onSceneTick := none
    stepDeadline := none
    nextRepeat := none
    arrivalDeadline := some (tickAfter s.clock (s.arrivalWindow c))
    heldBeacon := none
    referred := false
    directed := false })
  let s := s.changeCrew crew
    { s.crew crew with accepted := (s.crew crew).accepted ++ [c.number] }
  let s := s.withdrawPages c.number
  s.sendToCrews (standDown c (s.crew crew).name) (stoodDown c crew)

/-- An ACCEPT or ON_SCENE of a crew with a full accepted list is taken as a decline (R83). -/
def State.acceptAsDecline (s : State) (c : Call) (crew : Nat) : State :=
  let s := s.post (.crew crew)
  if c.state = .paging ∧ c.targets.contains crew then s.engineDecline c.number crew else s

/-- An ACCEPT for an ACCEPTED or ON_SCENE call (R84): a crew that was sent no stand-downs at the
acceptance is sent them now. -/
def State.lateAccept (s : State) (c : Call) (crew : Nat) : State :=
  match c.accepting with
  | none => s
  | some a =>
    if a = crew then s
    else if c.declined.contains crew ∨ !c.paged.contains crew then
      s.sendToCrews (standDown c (s.crew a).name) [crew]
    else s

/-! ### The kinds (4.4, 4.5) -/

/-- An effective ACCEPT of crew `crew` for call `c` (R80, R83, R84). -/
def State.ackAccept (s : State) (c : Call) (crew : Nat) (heard : Tick) : State :=
  match c.state with
  | .paging | .exhausted =>
    if !c.paged.contains crew then s
    else if s.hasRoom crew then s.acceptCall c crew heard
    else s.acceptAsDecline c crew
  | .accepted | .onScene => s.lateAccept c crew
  | .closed => s

/-- An effective DECLINE (R85). -/
def State.ackDecline (s : State) (c : Call) (crew : Nat) : State :=
  if c.state = .paging ∧ c.targets.contains crew then s.engineDecline c.number crew else s

/-- An ON_SCENE is never recorded before the acceptance (R87). -/
def arrivalTick (accept : Option Tick) (heard : Tick) : Tick :=
  match accept with
  | none => heard
  | some t => if earlier heard t then t else heard

/-- An effective ON_SCENE (R86, R87). -/
def State.ackOnScene (s : State) (c : Call) (crew : Nat) (heard : Tick) : State :=
  match c.state with
  | .paging | .exhausted =>
    if !c.paged.contains crew then s
    else if s.hasRoom crew then
      (s.acceptCall c crew heard).changeCall c.number (fun c => { c with
        state := .onScene
        onSceneTick := c.acceptTick
        arrivalDeadline := none })
    else s.acceptAsDecline c crew
  | .accepted =>
    if c.accepting = some crew then
      s.changeCall c.number (fun c => { c with
        state := .onScene
        arrivalDeadline := none
        onSceneTick := some (arrivalTick c.acceptTick heard) })
    else s
  | .onScene | .closed => s

/-- An effective DONE (R88). -/
def State.ackDone (s : State) (c : Call) (crew : Nat) : State :=
  match c.state with
  | .accepted | .onScene =>
    if c.accepting = some crew then s.closeCall .doneByCrew c.number else s
  | .paging | .exhausted | .closed => s

/-- An effective record matched to crew `crew` and call `c` is applied by its kind (R79). -/
def State.applyAck (s : State) (kind : AckKind) (c : Call) (crew : Nat) (heard : Tick) : State :=
  match kind with
  | .accept => s.ackAccept c crew heard
  | .decline => s.ackDecline c crew
  | .onScene => s.ackOnScene c crew heard
  | .done => s.ackDone c crew

/-- An effective record is matched to a crew and a call; in the first case that applies it is stray
(R79). -/
def State.matchAck (s : State) (r : AckRecord) (heard : Tick) : State :=
  match s.pagerEntry? r.pager with
  | none => s
  | some e =>
    match s.findCall r.call with
    | none => s
    | some c =>
      if c.state = .closed then s
      else if earlier heard c.raiseTick then s
      else s.applyAck r.kind c e.owner heard

/-- The heard tick of a record (R74). -/
def AckRecord.heard (now : Tick) (r : AckRecord) : Tick := now - BitVec.ofNat 24 r.age

/-- The acknowledgement unit takes a record delivered by station `st` (R73 to R79). -/
def State.takeAck (s : State) (st : Nat) (r : AckRecord) : State :=
  let heard := r.heard s.clock
  let s := s.seePager r.pager ⟨st, r.quality, heard⟩
  let e : AckEntry := ⟨r.pager, r.call, r.kind, heard, st⟩
  if s.acks.any (fun x => x.sameKey e) then s
  else (s.setAcks (enterAck s.clock s.dedupeTicks e s.acks)).matchAck r heard

end Sys2Proof.Machine
end

