-- ==== Sys2Proof/Machine/Crc.lean ====
section
/-!
DEFINITION. The 16-bit check of host frames and station line messages (R188), and the writing of
numbers as characters, most significant first.
-/

namespace Sys2Proof.Machine

/-- One bit of the check: the register moves up and takes the generator x^16 + x^12 + x^5 + 1 when
its top bit was set (R188). -/
def crcBit (r : BitVec 16) : BitVec 16 :=
  if r.msb then (r <<< 1) ^^^ 0x1021#16 else r <<< 1

/-- One character of the check, most significant bit first (R188). -/
def crcByte (r : BitVec 16) (b : Byte) : BitVec 16 :=
  let x := r ^^^ (b.setWidth 16 <<< 8)
  crcBit (crcBit (crcBit (crcBit (crcBit (crcBit (crcBit (crcBit x)))))))

/-- The check of a run of characters: the register preset to 0xFFFF, no final inversion (R188). -/
def crc (bs : List Byte) : BitVec 16 := bs.foldl crcByte 0xFFFF#16

/-- A number written in one character (R188). -/
def enc1 (n : Nat) : List Byte := [BitVec.ofNat 8 n]

/-- A number written in two characters, most significant first (R188). -/
def enc2 (n : Nat) : List Byte := [BitVec.ofNat 8 (n / 256), BitVec.ofNat 8 n]

/-- A number written in three characters, most significant first (R188). -/
def enc3 (n : Nat) : List Byte :=
  [BitVec.ofNat 8 (n / 65536), BitVec.ofNat 8 (n / 256), BitVec.ofNat 8 n]

/-- The check as sent: the register's high 8 bits first (R188). -/
def encCheck (r : BitVec 16) : List Byte := enc2 r.toNat

/-- The number two characters carry. -/
def dec2 (hi lo : Byte) : Nat := hi.toNat * 256 + lo.toNat

/-- The number three characters carry. -/
def dec3 (hi mid lo : Byte) : Nat := hi.toNat * 65536 + mid.toNat * 256 + lo.toNat

/-- The six fields of a host frame (R163). -/
def encodeFrame (kind tag : Byte) (payload : List Byte) : List Byte :=
  let body := BitVec.ofNat 8 payload.length :: kind :: tag :: payload
  Config.startChar :: (body ++ encCheck (crc body))

end Sys2Proof.Machine
end

