-- ==== Sys2Proof/Machine/Serial.lean ====
section
/-!
DEFINITION. The bits of the characters of the two lines (R130, R162): the levels of a character's bit times on HTXD,
HRXD, STXD and SRXD, and what the levels of a line show of the characters on it. Which level carries a 1 is the
family's (entry 35), and so is the order of the data bits on the station line (entry 37).
-/

namespace Sys2Proof.Machine

/-- The level of a line during one bit time: mark, at which an idle line stands, or space (R162). -/
inductive LineLevel where
  | mark
  | space
deriving DecidableEq, Repr

/-- The level that carries a data bit: mark for 1, space for 0 (entry 35). -/
def bitLevel (b : Bool) : LineLevel := if b then .mark else .space

/-- The bit times of a character of `w` data bits: a start bit, the data bits, least significant first, and a stop bit
(R130, R162). -/
def charLevels {w : Nat} (c : BitVec w) : List LineLevel :=
  .space :: ((List.range w).map (fun i => bitLevel (c.getLsbD i)) ++ [.mark])

/-- The ten bit times of a host link character (R162). -/
def hostBits (c : Byte) : List LineLevel := charLevels c

/-- The eleven bit times of a station line character, its ninth bit last but the stop bit (R130, entry 37). -/
def lineBits (c : Char9) : List LineLevel := charLevels c

/-- The `w` data bits that these levels carry, least significant first. -/
def bitsOf (w : Nat) (data : List LineLevel) : BitVec w :=
  BitVec.ofNat w (data.foldr (fun l n => 2 * n + if l = .mark then 1 else 0) 0)

/-- Where a reader of a line stands between two bit times. -/
inductive CharReader where
  /-- No character is on the line. -/
  | idle
  /-- A character whose start bit and these data bits have passed. -/
  | within (data : List LineLevel)
  /-- After a stop bit at the space level, until the line returns to the mark level. -/
  | held
deriving DecidableEq, Repr

/-- One bit time at this level on a line of characters of `w` data bits: where the reader then stands, and the data
bits and the level of the stop bit of the character that has ended with it. After a stop bit at the space level that
ends no break the reader waits for the mark level as after a break, the model's choice (entry 36). -/
def CharReader.next (w : Nat) : CharReader → LineLevel → CharReader × Option (BitVec w × LineLevel)
  | .idle, .mark => (.idle, none)
  | .idle, .space => (.within [], none)
  | .within data, l =>
    if data.length < w then (.within (data ++ [l]), none)
    else
      match l with
      | .mark => (.idle, some (bitsOf w data, .mark))
      | .space => (.held, some (bitsOf w data, .space))
  | .held, .mark => (.idle, none)
  | .held, .space => (.held, none)

/-- What the levels of a line bring, bit time by bit time: the data bits and the stop bit's level of every character
that has ended, in order, and where the reader then stands. -/
def readLevels (w : Nat) : CharReader → List LineLevel → List (BitVec w × LineLevel) × CharReader
  | r, [] => ([], r)
  | r, l :: ls =>
    let n := r.next w l
    let rest := readLevels w n.1 ls
    (n.2.toList ++ rest.1, rest.2)

/-- What HRXD brings at the end of a character (R162). -/
inductive HostSignal where
  /-- A character whose stop bit is at the mark level. -/
  | character (c : Byte)
  /-- A character error that is no break: its stop bit is at the space level, and some data bit is 1. -/
  | characterError
  /-- A break: a character error whose data bits are all zero. -/
  | lineBreak
deriving DecidableEq, Repr

/-- What a character on HRXD is, by its data bits and the level of its stop bit (R162). -/
def hostSignal : Byte × LineLevel → HostSignal
  | (c, .mark) => .character c
  | (c, .space) => if c = 0#8 then .lineBreak else .characterError

/-- What the levels of HRXD bring, in order (R162). -/
def readHrxd (r : CharReader) (ls : List LineLevel) : List HostSignal × CharReader :=
  let x := readLevels 8 r ls
  (x.1.map hostSignal, x.2)

/-- The character on SRXD with these data bits and this level of its stop bit: none without its stop bit (R130), the
model's choice (entry 38). -/
def lineCharacter : Char9 × LineLevel → Option Char9
  | (c, .mark) => some c
  | (_, .space) => none

/-- The characters that the levels of SRXD bring, in order (R130). -/
def readSrxd (r : CharReader) (ls : List LineLevel) : List Char9 × CharReader :=
  let x := readLevels 9 r ls
  (x.1.filterMap lineCharacter, x.2)

end Sys2Proof.Machine
end

