-- ==== Sys2Proof/Machine/StationLine.lean ====
section
/-!
DEFINITION. The station line controller (chapter 7, layouts R193 and R194): the arbiter of the line,
the commands it sends, the judging of replies, station health, and the handing on of floor records.
-/

namespace Sys2Proof.Machine

/-! ### Messages (11.4) -/

/-- An address character: ninth bit set, kind in the high 4 bits, station in the low 4 (R193). -/
def addressChar (kind station : Nat) : Char9 := BitVec.ofNat 9 (256 + kind * 16 + station)

/-- A data character: ninth bit clear (R193). -/
def dataChar (b : Byte) : Char9 := b.setWidth 9

/-- The 8 data bits of a character. -/
def dataBits (c : Char9) : Byte := c.setWidth 8

/-- The character is an address character. -/
def isAddress (c : Char9) : Bool := c.msb

/-- The message kind an address character carries (R193). -/
def addressKind (c : Char9) : Nat := (dataBits c).toNat / 16

/-- The station number an address character carries (R193). -/
def addressStation (c : Char9) : Nat := (dataBits c).toNat % 16

/-- A command: its address character, its contents and its check over the data bits (R188, R193). -/
def commandChars (kind station : Nat) (contents : List Byte) : List Char9 :=
  let a := addressChar kind station
  a :: (contents ++ encCheck (crc (dataBits a :: contents))).map dataChar

/-- SDEN is asserted for an exchange `k` character times after it was asserted for its command (R131): in the
character time ahead of the command's first character and to the end of its last. -/
def Exchange.drives (x : Exchange) (k : Nat) : Bool := decide (k ≤ x.command.length)

/-- The character on STXD `k` character times after SDEN was asserted; none while the line stands idle (R131). -/
def Exchange.sends (x : Exchange) : Nat → Option Char9
  | 0 => none
  | k + 1 => x.command[k]?

/-- The level of STXD `k` bit times after SDEN was asserted: the bits of the command's characters without gaps, from one
character time on, and the mark level before and after them (R130, R131; entry 37). -/
def Exchange.level (x : Exchange) (k : Nat) : LineLevel :=
  match x.sends (k / 11) with
  | none => .mark
  | some c => (lineBits c).getD (k % 11) .mark

/-- The level of STXD `k` bit times after the exchange on the line began; the mark level with none on the line (R130,
R131; entry 37). -/
def State.stxd (s : State) (k : Nat) : LineLevel :=
  match s.line.exchange with
  | none => .mark
  | some x => x.level k

/-- The SDEN output, asserted or not, `k` character times after the exchange on the line began: released at every
time with no exchange on the line, as after a reset (R131, R152). Entry 15. -/
def State.sden (s : State) (k : Nat) : Bool :=
  match s.line.exchange with
  | none => false
  | some x => x.drives k

/-- A POLL command: the RESYNC flag and the taken-through mark (R134, R193). Bits 1 to 7 of the flags are sent as
0, the model's choice (entry 32). -/
def pollCommand (st : Nat) (resync : Bool) (mark : Byte) : List Char9 :=
  commandChars 1 st [if resync then 1#8 else 0#8, mark]

/-- The code of an item kind (R192). -/
def ItemKind.code : ItemKind → Nat
  | .page => 0
  | .repage => 1
  | .standDown => 2
  | .closeNote => 3

/-- An item as a BURST carries it (R193). -/
def burstItem (i : Item) : List Byte :=
  enc2 i.pager ++ enc2 i.call ++ enc1 i.kind.code ++ enc1 i.cls.rank ++ enc1 i.attempt ++
    enc1 i.text.length ++ i.text

/-- A BURST command: its id and its items in burst order (R135, R193). -/
def burstCommand (st : Nat) (b : Burst) : List Char9 :=
  commandChars 2 st (b.id :: enc1 b.items.length ++ b.items.flatMap burstItem)

/-- A floor record of a poll reply, with its sequence number (R134, R193). -/
inductive FloorRecord where
  | ack (seq : Byte) (r : AckRecord)
  | press (seq : Byte) (input : Nat)
deriving DecidableEq, Repr

/-- The sequence number of a record. -/
def FloorRecord.seq : FloorRecord → Byte
  | .ack s _ => s
  | .press s _ => s

/-- A valid reply. -/
inductive ValidReply where
  /-- Transmitter busy, more flag, newest sequence, records. -/
  | poll (busy more : Bool) (newest : Byte) (records : List FloorRecord)
  /-- The outcome TAKEN, or REFUSED. -/
  | burst (taken : Bool)
deriving DecidableEq, Repr

/-- An ack kind by its code (R192). -/
def AckKind.ofCode : Nat → Option AckKind
  | 0 => some .accept
  | 1 => some .decline
  | 2 => some .onScene
  | 3 => some .done
  | _ => none

/-- A record by its nine characters; none where it makes the reply malformed (R133, R194). -/
def readRecord (seq type a b c d e f g : Byte) : Option FloorRecord :=
  if type = 0#8 then
    match AckKind.ofCode e.toNat with
    | none => none
    | some k =>
      let pager := dec2 a b
      if 1 ≤ pager ∧ pager ≤ 4095 ∧ f.toNat ≤ 15 then
        some (.ack seq ⟨pager, dec2 c d, k, f.toNat, g.toNat⟩)
      else none
  else if type = 1#8 then
    if 1 ≤ a.toNat ∧ a.toNat ≤ 4 then some (.press seq a.toNat) else none
  else none

/-- The records of a poll reply, in reply order. -/
def readRecords : List Byte → Option (List FloorRecord)
  | [] => some []
  | q :: t :: a :: b :: c :: d :: e :: f :: g :: rest =>
    match readRecord q t a b c d e f g, readRecords rest with
    | some r, some rs => some (r :: rs)
    | _, _ => none
  | _ => none

/-- The contents of a reply whose address, kind and check agree (R133). -/
def readContents (x : Exchange) : List Byte → Option ValidReply
  | [] => none
  | c0 :: rest =>
    match x.kind with
    | .burst =>
      match rest with
      | [outcome] =>
        if c0 = x.burstId ∧ outcome = 0#8 then some (.burst true)
        else if c0 = x.burstId ∧ outcome = 1#8 then some (.burst false)
        else none
      | _ => none
    | .poll =>
      match rest with
      | newest :: _ :: recs =>
        match readRecords recs with
        | some rs => some (.poll (c0.getLsbD 0) (c0.getLsbD 1) newest rs)
        | none => none
      | _ => none

/-- What the characters received so far show of a reply (R132, R194). -/
inductive ReplyShape where
  /-- Further characters are to come. -/
  | incomplete
  /-- A character shows that the reply is malformed; the exchange ends at that moment. -/
  | malformed
  /-- The reply is complete with these characters. -/
  | complete (chars : List Char9)
deriving DecidableEq, Repr

/-- A reply of `len` characters is complete when that many have been received; later ones are discarded
(R130, R132). -/
def completeAt (len : Nat) (cs : List Char9) : ReplyShape :=
  if cs.length < len then .incomplete else .complete (cs.take len)

/-- The shape of a reply by its first characters (R194). -/
def replyShape (cs : List Char9) : ReplyShape :=
  match cs with
  | [] => .incomplete
  | a :: rest =>
    if !isAddress a then .malformed
    else if addressKind a = 10 then completeAt 5 cs
    else if addressKind a = 9 then
      match rest[2]? with
      | none => .incomplete
      | some n =>
        if 8 < (dataBits n).toNat then .malformed else completeAt (6 + 9 * (dataBits n).toNat) cs
    else .malformed

/-- The kind code that answers an exchange. -/
def ExchangeKind.replyCode : ExchangeKind → Nat
  | .poll => 9
  | .burst => 10

/-- A complete reply read against the exchange it answers; none when it is malformed (R133, R194). -/
def readReply (x : Exchange) (cs : List Char9) : Option ValidReply :=
  match cs with
  | [] => none
  | a :: rest =>
    let data := rest.map dataBits
    let contents := data.take (data.length - 2)
    if isAddress a ∧ rest.all (fun c => !isAddress c) ∧ addressStation a = x.station ∧
        addressKind a = x.kind.replyCode ∧
        data.drop (data.length - 2) = encCheck (crc (dataBits a :: contents)) then
      readContents x contents
    else none

/-! ### Due polls and leaving service (7.2, 7.3) -/

/-- The poll due tick after a poll of the station has ended, by the station's state (R141). -/
def State.armDue (s : State) (st : Nat) : State :=
  let x := s.station st
  let p := s.store.params.pollPeriod
  match x.service with
  | .inService | .suspect =>
    s.putStation st { x with due := some (tickAfter s.clock p), pollWaits := false }
  | .silent => s.putStation st { x with due := some (tickAfter s.clock (8 * p)), pollWaits := false }
  | .outOfService => s.putStation st { x with due := none, pollWaits := false }

/-- An exchange of the station that is on the line will end without effect (R137). -/
def State.voidExchange (s : State) (st : Nat) : State :=
  s.setLine { s.line with exchange := s.line.exchange.map (fun x =>
    if x.station = st then { x with void := true } else x) }

/-- The station leaves the follow-up list (R142). -/
def State.dropFollowUp (s : State) (st : Nat) : State :=
  s.setLine { s.line with followUps := s.line.followUps.filter (fun x => decide (x ≠ st)) }

/-- The station is appended to the follow-up list unless it stands there (R142). -/
def State.addFollowUp (s : State) (st : Nat) : State :=
  s.setLine { s.line with followUps := addToSet s.line.followUps st }

/-- The station goes SILENT with miss count `m` (R140, R141, R123): posted, RESYNC pending, out of the
follow-up list, its due poll armed anew, an exchange of its own on the line void, its queue flushed. -/
def State.goSilent (s : State) (st m : Nat) : State :=
  let s := s.changeStation st { s.station st with
    service := .silent
    misses := m
    resync := true
    due := some (tickAfter s.clock (8 * s.store.params.pollPeriod))
    pollWaits := false }
  ((s.dropFollowUp st).voidExchange st).flush st

/-- A miss is recorded against a station (R140). -/
def State.recordMiss (s : State) (st : Nat) : State :=
  let x := s.station st
  match x.service with
  | .inService | .suspect =>
    if s.store.params.missLimit ≤ x.misses + 1 then s.goSilent st (x.misses + 1)
    else s.changeStation st { x with service := .suspect, misses := x.misses + 1 }
  | .silent | .outOfService => s

/-- An answer of a station that is IN_SERVICE or SUSPECT (R139, R150). -/
def State.recordAnswer (s : State) (st : Nat) : State :=
  let x := s.station st
  match x.service with
  | .inService | .suspect =>
    if x.service = .inService ∧ x.misses = 0 then s
    else (s.changeStation st { x with service := .inService, misses := 0 }).arbitrate x.group
  | .silent | .outOfService => s

/-! ### Floor records (7.4) -/

/-- A record taken as new is handed onward (R147). -/
def State.handOnward (st : Nat) (r : FloorRecord) (s : State) : State :=
  match r with
  | .ack _ a => s.takeAck st a
  | .press _ input => s.press st input

/-- A record is new when its sequence number lies 1..127 after the mark (R143). -/
def isNew (mark seq : Byte) : Bool := decide (1 ≤ (seq - mark).toNat ∧ (seq - mark).toNat ≤ 127)

/-- A record judged against the station's mark (R143). -/
def State.judgeRecord (st : Nat) (r : FloorRecord) (s : State) : State :=
  let x := s.station st
  if isNew x.mark r.seq then (s.putStation st { x with mark := r.seq }).handOnward st r else s

/-- The mark a RESYNC reply leaves: its last record's sequence number, or its newest sequence (R144). -/
def resyncMark (newest : Byte) (records : List FloorRecord) : Byte :=
  match records.getLast? with
  | none => newest
  | some r => r.seq

/-- The floor records of a valid poll reply (R143, R144). -/
def State.takeRecords (s : State) (st : Nat) (resync : Bool) (newest : Byte)
    (records : List FloorRecord) : State :=
  if resync then
    let s := forEach records (State.handOnward st) s
    s.putStation st { s.station st with mark := resyncMark newest records, resync := false }
  else forEach records (State.judgeRecord st) s

/-! ### The end of an exchange (7.2) -/

/-- A valid poll reply (R134, R145, R146). -/
def State.pollAnswered (s : State) (x : Exchange) (busy more : Bool) (newest : Byte)
    (records : List FloorRecord) : State :=
  let st := x.station
  match (s.station st).service with
  | .inService | .suspect =>
    let s := (s.recordAnswer st).transmitterSeen st busy
    let s := s.takeRecords st x.resync newest records
    let s := if more then s.addFollowUp st else s
    s.armDue st
  | .silent =>
    let s := s.changeStation st { s.station st with service := .inService, misses := 0 }
    let s := (s.arbitrate (s.station st).group).transmitterSeen st busy
    (s.addFollowUp st).armDue st
  | .outOfService => s

/-- A valid burst reply (R135, R137). -/
def State.burstAnswered (s : State) (x : Exchange) (taken : Bool) : State :=
  let s := s.recordAnswer x.station
  if x.detached then s
  else if taken then s.burstTaken x.station
  else s.burstFailed x.station

/-- An exchange that ends with no reply (R134, R135, R140). -/
def State.noReply (s : State) (x : Exchange) : State :=
  match x.kind with
  | .poll => (s.recordMiss x.station).armDue x.station
  | .burst =>
    (if x.detached then s else s.burstFailed x.station).recordMiss x.station

/-- The exchange on the line ends; a void one ends without effect (R137). -/
def State.endExchange (s : State) (x : Exchange) (reply : Option ValidReply) : State :=
  let s := s.setLine { s.line with exchange := none }
  if x.void then s
  else
    match reply with
    | none => s.noReply x
    | some (.poll busy more newest records) => s.pollAnswered x busy more newest records
    | some (.burst taken) => s.burstAnswered x taken

/-- The characters of a reply are received (R132, R133, R194). -/
def State.receiveReply (s : State) (cs : List Char9) : State :=
  match s.line.exchange with
  | none => s
  | some x =>
    match replyShape cs with
    | .incomplete => s
    | .malformed => s.endExchange x none
    | .complete chars => s.endExchange x (readReply x chars)

/-! ### The beginning of an exchange (7.2) -/

/-- The age of a station's waiting due poll; none when no due poll of it waits (R136). -/
def State.dueAge (s : State) (st : Nat) : Option Nat :=
  match (s.station st).due with
  | none => none
  | some t => if (s.station st).pollWaits then some (s.clock - t).toNat else none

/-- The station whose due tick was reached earliest, the lowest number among equals (R136). -/
def State.oldestDue (s : State) : Option Nat :=
  let better := fun (best : Option (Nat × Nat)) (st : Nat) =>
    match s.dueAge st, best with
    | none, b => b
    | some a, none => some (st, a)
    | some a, some (_, b) => if b < a then some (st, a) else best
  ((List.range' 1 12).foldl better none).map Prod.fst

/-- The station whose poll the arbiter begins: the first of the follow-up list, or else that of the
oldest due poll (R136). -/
def State.nextPoll (s : State) : Option Nat :=
  match s.line.followUps with
  | st :: _ => some st
  | [] => s.oldestDue

/-- A poll of a station begins: it leaves the follow-up list, its due tick is cleared and its POLL is
sent (R134, R136, R144). -/
def State.beginPoll (s : State) (st : Nat) : State :=
  let x := s.station st
  let s := (s.putStation st { x with due := none, pollWaits := false }).dropFollowUp st
  let e : Exchange := ⟨.poll, st, 0#8, x.resync, pollCommand st x.resync x.mark, false, false⟩
  s.setLine { s.line with exchange := some e }

/-- POLL_EXCHANGE_BEGIN: the line is free, no BURST exchange waits, and the arbiter begins a poll
(R136). -/
def execPollExchangeBegin (s : State) : Host.Outcome State Fault Refusal :=
  match s.line.exchange, s.line.burstWaits, s.nextPoll with
  | none, [], some st => .next (s.beginPoll st)
  | _, _, _ => .next s

/-- The BURST exchange of a granted station begins; without a waiting item no burst is formed and the
grant is released (R117, R135). -/
def State.beginBurst (s : State) (st : Nat) : State :=
  let s := s.setLine { s.line with
    burstWaits := s.line.burstWaits.filter (fun x => decide (x ≠ st)) }
  if (s.queue st).waiting = [] then (s.releaseGrant st).arbitrate (s.station st).group
  else
    let r := s.formBurst st
    let e : Exchange := ⟨.burst, st, r.2.id, false, burstCommand st r.2, false, false⟩
    r.1.setLine { r.1.line with exchange := some e }

/-- BURST_EXCHANGE_BEGIN: the line is free and the arbiter begins the BURST exchange whose grant was
given earliest (R135, R136). -/
def execBurstExchangeBegin (s : State) : Host.Outcome State Fault Refusal :=
  match s.line.exchange, s.line.burstWaits with
  | none, st :: _ => .next (s.beginBurst st)
  | _, _ => .next s

/-- POLL_DUE: a station's poll due tick is reached and its due poll waits at the line (R141). -/
def execPollDue (st : Nat) (s : State) : Host.Outcome State Fault Refusal :=
  if dueAt s.clock (s.station st).due then
    .next (s.putStation st { s.station st with pollWaits := true })
  else .next s

/-- The airtime limit of an ON_AIR station is reached: the grant is released with the mark set, and a
miss is recorded (R122). -/
def State.airtimeOver (s : State) (st : Nat) : State :=
  (((s.releaseGrant st).setWaitIdle st true).arbitrate (s.station st).group).recordMiss st

end Sys2Proof.Machine
end

