-- ==== Sys2Proof/Machine/Layouts.lean ====
section
/-!
DEFINITION. The layouts of notices and of the contents of replies (chapter 11, R188 to R192).
-/

namespace Sys2Proof.Machine

/-! ### Conventions (R188) -/

/-- A yes or no, or a presence character. -/
def encBool (b : Bool) : List Byte := enc1 (if b then 1 else 0)

/-- An optional reference, 0 when absent. -/
def encRef (x : Option Nat) : List Byte := enc1 (x.getD 0)

/-- A tick. -/
def encTick (t : Tick) : List Byte := enc3 t.toNat

/-- An optional tick, 0 when absent. -/
def encOptTick (t : Option Tick) : List Byte := encTick (t.getD 0#24)

/-- Text: a length character and the characters. -/
def encText (t : Text) : List Byte := enc1 t.length ++ t

/-- A list of one-character numbers: a count and the members. -/
def encList1 (xs : List Nat) : List Byte := enc1 xs.length ++ xs.flatMap enc1

/-- A list of two-character numbers: a count and the members. -/
def encList2 (xs : List Nat) : List Byte := enc1 xs.length ++ xs.flatMap enc2

/-- The sum of the bits that are set, bit 0 first. -/
def bits : List Bool → Nat
  | [] => 0
  | b :: bs => (if b then 1 else 0) + 2 * bits bs

/-! ### Codes (R191, R192) -/

/-- Result codes (R191). -/
def Result.code : Result → Nat
  | .ok => 0
  | .unknownRequest => 1
  | .badLength => 2
  | .badValue => 3
  | .noSuchCall => 4
  | .callClosed => 5
  | .noSuchEntry => 6
  | .bookFull => 7
  | .tableFull => 8
  | .pagerInUse => 9
  | .storeBusy => 10
  | .wrongState => 11

/-- Call state codes. -/
def CallState.code : CallState → Nat
  | .paging => 0
  | .accepted => 1
  | .onScene => 2
  | .exhausted => 3
  | .closed => 4

/-- Close reason codes, 0 when absent. -/
def reasonCode : Option CloseReason → Nat
  | none => 0
  | some .cleared => 1
  | some .cancelled => 2
  | some .doneByCrew => 3

/-- The source of a call: its code, and the call point's station and input (0, 0 for the plant
computer). -/
def encSource : CallSource → List Byte
  | .plantComputer => enc1 0 ++ enc1 0 ++ enc1 0
  | .callPoint st i => enc1 1 ++ enc1 st ++ enc1 i

/-- Ack kind codes. -/
def AckKind.code : AckKind → Nat
  | .accept => 0
  | .decline => 1
  | .onScene => 2
  | .done => 3

/-- Duty codes. -/
def Duty.code : Duty → Nat
  | .offDuty => 0
  | .onDuty => 1

/-- The derived crew state: OFF_DUTY 0, AVAILABLE 1, ENGAGED 2 (R26). -/
def Crew.stateCode (c : Crew) : Nat :=
  if c.accepted ≠ [] then 2
  else match c.duty with
    | .offDuty => 0
    | .onDuty => 1

/-- Service state and setting codes. -/
def Service.code : Service → Nat
  | .inService => 0
  | .suspect => 1
  | .silent => 2
  | .outOfService => 3

/-- Grant phase codes. -/
def Phase.code : Phase → Nat
  | .none => 0
  | .granted => 1
  | .inFlight => 2
  | .onAir => 3

/-- Idle level codes. -/
def Level.code : Level → Nat
  | .low => 0
  | .high => 1

/-- Output level codes; RELEASED has none (free value, entry 14). -/
def OutLevel.char : OutLevel → Byte
  | .low => 0#8
  | .high => 1#8
  | .released => Config.releasedCode

/-- Link state codes. -/
def LinkState.code : LinkState → Nat
  | .starting => 0
  | .online => 1
  | .local => 2

/-- Store state codes. -/
def StoreState.code : StoreState → Nat
  | .idle => 0
  | .saving => 1

/-- Last store result codes. -/
def StoreResult.code : StoreResult → Nat
  | .none => 0
  | .ok => 1
  | .failed => 2

/-- Load result codes; an absent one has none (free value, entry 14). -/
def loadResultChar : Option LoadResult → Byte
  | some .ok => 0#8
  | some .blank => 1#8
  | some .badCheck => 2#8
  | none => Config.noLoadResultCode

/-- Reset cause codes. -/
def Cause.code : Cause → Nat
  | .powerOn => 0
  | .resetLine => 1
  | .request => 2

/-! ### Notice payloads (11.3) -/

/-- A response time: the difference of two ticks mod 2^24, when both are present (R3). -/
def response (from' to' : Option Tick) : Option Tick :=
  match from', to' with
  | some a, some b => some (b - a)
  | _, _ => none

/-- The CALL NOTICE payload (11.3). The bits R192 does not name, 3 to 7 of the flags and 6 and 7 of the presence
character, are written 0, the model's choice (entry 33). -/
def callNotice (c : Call) : List Byte :=
  enc2 c.number ++ enc1 c.state.code ++ enc1 (reasonCode c.reason) ++ encSource c.source ++
    enc1 c.origin ++ enc1 c.cls.rank ++ enc1 c.ladder ++ encRef c.preferred ++ enc1 c.stepIndex ++
    enc1 (bits [c.directed, c.referred, c.forceWide]) ++ enc1 c.restarts ++ encTick c.stepStart ++
    enc2 c.window ++ enc2 c.interval ++ enc1 c.repeats ++ enc1 c.attempts ++ encRef c.stepPool ++
    encOptTick c.stepDeadline ++ encOptTick c.nextRepeat ++ encOptTick c.arrivalDeadline ++
    encTick c.raiseTick ++ encOptTick c.acceptTick ++ encOptTick c.onSceneTick ++
    encOptTick c.closeTick ++ encOptTick (response (some c.raiseTick) c.acceptTick) ++
    encOptTick (response c.acceptTick c.onSceneTick) ++ encRef c.accepting ++ encRef c.heldBeacon ++
    enc1 c.presses ++
    enc1 (bits [c.stepDeadline.isSome, c.nextRepeat.isSome, c.arrivalDeadline.isSome,
      c.acceptTick.isSome, c.onSceneTick.isSome, c.closeTick.isSome]) ++
    encList1 c.targets ++ encList1 c.declined ++ encList1 c.paged ++ encText c.text

/-- The CREW NOTICE payload (11.3). -/
def crewNotice (n : Nat) (c : Crew) : List Byte :=
  enc1 n ++ encBool c.defined ++ enc1 c.duty.code ++ enc1 c.stateCode ++ enc1 c.home ++
    encText c.name ++ encList2 c.members ++ encList2 c.accepted

/-- The STATION NOTICE payload (11.3). Bits 1 to 7 of the presence character, which R192 does not name, are written 0,
the model's choice (entry 33). -/
def stationNotice (n : Nat) (x : Station) : List Byte :=
  enc1 n ++ encBool x.defined ++ enc1 x.group ++ enc1 x.setting.code ++ enc1 x.service.code ++
    enc1 x.misses ++ [x.mark] ++ encBool x.resync ++ encBool x.due.isSome ++ encOptTick x.due ++
    encList1 x.neighbours

/-- The PART NOTICE payload (11.3): the part record (R187). -/
def State.partNotice (s : State) : List Byte :=
  enc1 s.link.state.code ++ enc1 s.store.state.code ++ enc1 s.store.lastResult.code ++
    [loadResultChar s.store.loadResult] ++ enc1 s.store.cause.code

/-! ### Reply contents (R192) -/

/-- One summary of LIST_CALLS (R23). -/
def callSummary (c : Call) : List Byte :=
  enc2 c.number ++ enc1 c.state.code ++ enc1 c.cls.rank ++ enc1 c.stepIndex ++ enc1 (reasonCode c.reason)

/-- The records LIST_CALLS gives: the open calls in ascending number, then the CLOSED ones in closing
order (R23). -/
def State.listedCalls (s : State) : List Call :=
  s.book.calls.filter (fun c => decide (c.state ≠ .closed)) ++ s.book.closedOrder.filterMap s.findCall

/-- The contents of a LIST_CALLS reply. -/
def State.listCallsReply (s : State) : List Byte :=
  enc1 s.listedCalls.length ++ s.listedCalls.flatMap callSummary

/-- One entry of LIST_ACKS (R78). -/
def ackSummary (e : AckEntry) : List Byte :=
  enc2 e.pager ++ enc2 e.call ++ enc1 e.kind.code ++ encTick e.heard ++ enc1 e.station

/-- The contents of a LIST_ACKS reply (R78). -/
def State.listAcksReply (s : State) : List Byte :=
  encTick s.clock ++ enc2 s.dedupeTicks ++ enc1 s.acks.length ++ s.acks.flatMap ackSummary

/-- A step as SET_LADDER lays it out (R189). -/
def encStep (x : LadderStep) : List Byte :=
  (match x.kind with
    | .crew c => enc1 0 ++ enc1 c
    | .poolOne p => enc1 1 ++ enc1 p
    | .poolAll p => enc1 2 ++ enc1 p
    | .refer => enc1 3 ++ enc1 0
    | .noTarget => enc1 4 ++ enc1 0) ++
  enc2 x.window ++ enc1 x.repeats ++ encRef x.beacon

/-- A ladder in the layout of the SET_LADDER request payload (R192). -/
def ladderReply (n : Nat) (l : Ladder) : List Byte :=
  enc1 n ++ enc2 l.arrival ++ enc1 l.restartLimit ++ encRef l.exhaustBeacon ++ enc1 l.steps.length ++
    l.steps.flatMap encStep

/-- A pattern as SET_PARAMS lays it out. -/
def encPattern (p : Pattern) : List Byte := enc1 p.period ++ enc1 p.onTime

/-- The SET_PARAMS value fields, 24 characters (R189, R192). -/
def paramsReply (p : Params) : List Byte :=
  enc1 p.factor.routine ++ enc1 p.factor.urgent ++ enc1 p.factor.hazard ++ enc1 p.factor.emergency ++
    enc2 p.freshness ++ enc1 p.dedupe ++ enc2 p.silence ++ enc1 p.pollPeriod ++ enc1 p.airtimeLimit ++
    enc1 p.stayLimit ++ enc1 p.missLimit ++ encPattern p.pattern.routine ++
    encPattern p.pattern.urgent ++ encPattern p.pattern.hazard ++ encPattern p.pattern.emergency ++
    enc3 p.rate

/-- The contents of a QUERY_PART reply (R187, R192). -/
def State.partReply (s : State) : List Byte :=
  s.partNotice ++ paramsReply s.store.params ++ enc3 s.link.rateInUse ++ encTick s.clock

/-- The contents of a QUERY_POOL reply. -/
def poolReply (p : Pool) : List Byte := encList1 p.crews ++ enc1 p.pointer

/-- The contents of a QUERY_PAGER reply (R41). -/
def State.pagerReply (s : State) (e : PagerEntry) : List Byte :=
  enc1 e.owner ++ encBool e.location.isSome ++
    (match e.location with
      | none => enc1 0 ++ enc1 0 ++ enc3 0
      | some l => enc1 l.station ++ enc1 l.quality ++ encTick l.heard) ++
    encTick s.clock

/-- The exchange on the line of a station: 0 none, 1 POLL, 2 BURST (R151, R192). -/
def State.lineCode (s : State) (st : Nat) : Nat :=
  match s.line.exchange with
  | none => 0
  | some x =>
    if x.station ≠ st then 0
    else match x.kind with
      | .poll => 1
      | .burst => 2

/-- The contents of a QUERY_STATION reply (R151). -/
def State.stationReply (s : State) (st : Nat) : List Byte :=
  stationNotice st (s.station st) ++ encBool (s.line.followUps.contains st) ++ enc1 (s.lineCode st) ++
    encTick s.clock

/-- An item in a QUERY_QUEUE reply, without its part (R192). -/
def itemSummary (i : Item) : List Byte :=
  enc2 i.pager ++ enc2 i.call ++ enc1 i.kind.code ++ enc1 i.cls.rank ++ enc1 i.attempt

/-- The waiting items of a QUERY_QUEUE reply, each with its part: 1 return part, 0 ordered part. -/
def encWaiting (q : StationQueue) : List Byte :=
  enc1 q.waiting.length ++ q.returned.flatMap (fun i => itemSummary i ++ enc1 1) ++
    q.ordered.flatMap (fun i => itemSummary i ++ enc1 0)

/-- The in-flight burst of a QUERY_QUEUE reply. -/
def encFlight : Option Burst → List Byte
  | none => encBool false ++ enc1 0 ++ enc1 0
  | some b => encBool true ++ [b.id] ++ enc1 b.items.length ++ b.items.flatMap itemSummary

/-- The contents of a QUERY_QUEUE reply (R113, R192); the group fields of an undefined station are 0
(entry 16). -/
def State.queueReply (s : State) (st : Nat) : List Byte :=
  let x := s.station st
  let q := s.queue st
  let g := s.group x.group
  if x.defined then
    enc1 q.count ++ enc1 x.group ++ enc1 q.phase.code ++ encBool q.waitIdle ++ encWaiting q ++
      encFlight q.flight ++ encRef g.holder ++ enc1 g.last ++ enc1 g.consecutive
  else
    enc1 0 ++ enc1 0 ++ enc1 0 ++ encBool false ++ enc1 0 ++ encFlight none ++ enc1 0 ++ enc1 0 ++ enc1 0

/-- A beacon block of a QUERY_BEACONS reply (R160, R192). -/
def beaconBlock (now : Tick) (b : Beacon) : List Byte :=
  enc1 b.idle.code ++ encBool b.hold.isSome ++ enc1 ((b.hold.map Cls.rank).getD 0) ++
    encList2 b.holders ++ encBool b.driving.isSome ++
    (match b.driving with
      | none => enc1 0 ++ enc1 0 ++ enc1 0 ++ enc1 0
      | some d => enc1 d.cls.rank ++ enc1 d.period ++ enc1 d.onTime ++ enc1 (d.position now)) ++
    [b.output.char]

/-- The contents of a QUERY_BEACONS reply (R160). -/
def State.beaconsReply (s : State) : List Byte :=
  encTick s.clock ++ (List.range' 1 8).flatMap (fun z => beaconBlock s.clock (s.beacon z))

end Sys2Proof.Machine
end

