-- ==== Sys2Proof/Machine/Outbound.lean ====
section
/-!
DEFINITION. The outbound path of the host link (9.4, 9.5, R192): the frames of replies and notices, and the start of
the next frame.
-/

namespace Sys2Proof.Machine

/-- The segment character of segment `n`: plus 0x80 on the last (R192). -/
def segmentChar (n : Nat) (last : Bool) : Byte := BitVec.ofNat 8 (n + if last then 0x80 else 0)

/-- The contents segment `n` of a reply carries (R192). -/
def segmentOf (n : Nat) (contents : List Byte) : List Byte :=
  (contents.drop (Config.segmentLen * (n - 1))).take Config.segmentLen

/-- Segment `n` is the last of its reply (R192). -/
def lastSegment (n : Nat) (contents : List Byte) : Bool :=
  decide (contents.length ≤ Config.segmentLen * n)

/-- The next frame of a reply (R191, R192). -/
def Reply.frame (r : Reply) : Frame :=
  let last := lastSegment r.segment r.contents
  { chars := encodeFrame r.kind r.tag
      (enc1 r.result.code ++ [segmentChar r.segment last] ++ segmentOf r.segment r.contents)
    frees := none
    resets := decide (r.kind = 0x9A#8 ∧ r.result = .ok) && last }

/-- The frame of a notice as its record stands (R171, R189); none for a record that is not there. -/
def State.noticeFrame (s : State) : NoticeKey → Option Frame
  | .call n =>
    match s.findCall n with
    | none => none
    | some c => some ⟨encodeFrame 0x40#8 0#8 (callNotice c),
        if c.state = .closed then some n else none, false⟩
  | .crew c => some ⟨encodeFrame 0x41#8 0#8 (crewNotice c (s.crew c)), none, false⟩
  | .station st => some ⟨encodeFrame 0x42#8 0#8 (stationNotice st (s.station st)), none, false⟩
  | .part => some ⟨encodeFrame 0x43#8 0#8 s.partNotice, none, false⟩

/-- The oldest reply's next frame starts; the reply leaves the queue when its last segment starts (R169,
R192). -/
def State.startReply (s : State) (r : Reply) (rest : List Reply) : State :=
  s.setLink { s.link with
    sending := some r.frame
    replies := if lastSegment r.segment r.contents then rest
      else { r with segment := r.segment + 1 } :: rest }

/-- The free outbound path starts a frame, if one is ready: the oldest reply, or else a notice formed from
the first entry of the list, which leaves it (R169, R171). In STARTING it sends nothing. -/
def State.startFrame (s : State) : State :=
  if s.link.state = .starting ∨ s.link.sending ≠ none then s
  else
    match s.link.replies with
    | r :: rest => s.startReply r rest
    | [] =>
      match s.link.notices with
      | [] => s
      | k :: ks => s.setLink { s.link with sending := s.noticeFrame k, notices := ks }

/-- A frame that is ready starts at once when HCTS stands asserted and the path is free (R169). Every event that
posts a record or queues a reply ends with this, its changes all made (R171). Entry 6. -/
def State.sendReady (s : State) : State := if s.link.hcts then s.startFrame else s

end Sys2Proof.Machine
end

