-- ==== Sys2Proof/Machine/Events.lean ====
section
/-!
DEFINITION. The meanings of the events that may post a record while the block runs by itself: a call's deadlines, the
silence timer, the airtime limit, and the ends of exchanges. Each ends with the start of a frame that it makes ready
on a free path (R169).
-/

namespace Sys2Proof.Machine

/-! ### Expiries (3.5, 3.6, 3.9, 6.5, 9.6) -/

/-- REPEAT_EXPIRY: the next repeat tick of a PAGING call is reached (R44, R59). -/
def execRepeatExpiry (n : Nat) (s : State) : Host.Outcome State Fault Refusal :=
  match s.findCall n with
  | none => .next s
  | some c =>
    if c.state = .paging ∧ dueAt s.clock c.nextRepeat then .next (s.sendRepeat c).sendReady else .next s

/-- STEP_DEADLINE_EXPIRY: the step deadline of a PAGING call is reached (R44, R60). -/
def execStepDeadlineExpiry (n : Nat) (s : State) : Host.Outcome State Fault Refusal :=
  match s.findCall n with
  | none => .next s
  | some c =>
    if c.state = .paging ∧ dueAt s.clock c.stepDeadline then .next (s.advanceCall n).sendReady else .next s

/-- ARRIVAL_EXPIRY: the arrival deadline of an ACCEPTED call is reached (R44, R71). -/
def execArrivalExpiry (n : Nat) (s : State) : Host.Outcome State Fault Refusal :=
  match s.findCall n with
  | none => .next s
  | some c =>
    if c.state = .accepted ∧ dueAt s.clock c.arrivalDeadline then
      .next ((s.releaseCrew c).advanceCall n).sendReady
    else .next s

/-- SILENCE_TIMER_EXPIRY: the silence timer is reached with the link ONLINE, and the link enters LOCAL
(R174). -/
def execSilenceTimerExpiry (s : State) : Host.Outcome State Fault Refusal :=
  if s.link.state = .online ∧ dueAt s.clock s.link.silence then
    .next (((s.setLink { s.link with state := .local, silence := none }).post .part).advanceAllReferred).sendReady
  else .next s

/-- AIRTIME_DEADLINE_EXPIRY: the airtime deadline of an ON_AIR station is reached (R122). -/
def execAirtimeDeadlineExpiry (st : Nat) (s : State) : Host.Outcome State Fault Refusal :=
  if (s.queue st).phase = .onAir ∧ dueAt s.clock (s.group (s.station st).group).deadline then
    .next (s.airtimeOver st).sendReady
  else .next s

/-! ### The ends of exchanges (7.2) -/

/-- The levels of SRXD, bit time by bit time from the release of SDEN on, and what the characters they bring do as a
reply (R130, R132). -/
def State.receiveLine (s : State) (ls : List LineLevel) : State := (s.receiveReply (readSrxd .idle ls).1).sendReady

/-- POLL_REPLY: a complete poll reply ends its exchange (R134). -/
def execPollReply (chars : List Char9) (s : State) : Host.Outcome State Fault Refusal :=
  .next (s.receiveReply chars).sendReady

/-- BURST_REPLY: a complete burst reply ends its exchange (R135). -/
def execBurstReply (chars : List Char9) (s : State) : Host.Outcome State Fault Refusal :=
  .next (s.receiveReply chars).sendReady

/-- MALFORMED_REPLY_START: the characters received show at once that the reply is malformed, and the
exchange ends with no reply (R194). -/
def execMalformedReplyStart (chars : List Char9) (s : State) : Host.Outcome State Fault Refusal :=
  match s.line.exchange with
  | none => .next s
  | some x =>
    if replyShape chars = .malformed then .next (s.endExchange x none).sendReady else .next s

/-- REPLY_WINDOW_EXPIRY: no character within the reply window, and the exchange ends with no reply
(R132). -/
def execReplyWindowExpiry (s : State) : Host.Outcome State Fault Refusal :=
  match s.line.exchange with
  | none => .next s
  | some x => .next (s.endExchange x none).sendReady

/-- REPLY_GAP_ABANDON: the reply is abandoned at a gap, and the exchange ends with no reply (R132). -/
def execReplyGapAbandon (s : State) : Host.Outcome State Fault Refusal :=
  match s.line.exchange with
  | none => .next s
  | some x => .next (s.endExchange x none).sendReady

end Sys2Proof.Machine
end

