-- ==== Sys2Proof/Machine/Operands.lean ====
section
/-!
DEFINITION. The operand forms: the request payloads of R189, read with the length check of R190. Each
reader answers none exactly when the payload's length does not fit the kind.
-/

namespace Sys2Proof.Machine

/-- The payload of RAISE (R9, R189). -/
structure RaiseOperands where
  cls : Nat
  ladder : Nat
  origin : Nat
  /-- 0 when absent (R188). -/
  preferred : Nat
  text : Text
deriving DecidableEq, Repr

/-- The payload of SET_CALLPOINT (R12, R189). -/
structure PointOperands where
  station : Nat
  input : Nat
  action : Nat
  ladder : Nat
  cls : Nat
  text : Text
deriving DecidableEq, Repr

/-- The payload of SET_CREW (2.4, R189). -/
structure CrewOperands where
  crew : Nat
  selection : Byte
  defined : Nat
  duty : Nat
  home : Nat
  name : Text
  members : List Nat
deriving DecidableEq, Repr

/-- One step of a SET_LADDER payload (R189). -/
structure StepOperands where
  kind : Nat
  operand : Nat
  window : Nat
  repeats : Nat
  beacon : Nat
deriving DecidableEq, Repr

/-- The payload of SET_LADDER (R47, R189). -/
structure LadderOperands where
  ladder : Nat
  arrival : Nat
  restartLimit : Nat
  exhaustBeacon : Nat
  steps : List StepOperands
deriving DecidableEq, Repr

/-- The payload of DIRECT (R69, R189). -/
structure DirectOperands where
  call : Nat
  crew : Nat
  window : Nat
  repeats : Nat
deriving DecidableEq, Repr

/-- The payload of SET_STATION (7.5, R189). -/
structure StationOperands where
  station : Nat
  action : Nat
  group : Nat
  setting : Nat
  neighbours : List Nat
deriving DecidableEq, Repr

/-- The payload of SET_PARAMS (R183, R189). -/
structure ParamsOperands where
  selection : Nat
  values : Params
deriving DecidableEq, Repr

/-- A payload of no characters. -/
def readNothing : List Byte → Option Unit
  | [] => some ()
  | _ => none

/-- A payload of one one-character number. -/
def readOne : List Byte → Option Nat
  | [a] => some a.toNat
  | _ => none

/-- A payload of one two-character number. -/
def readTwo : List Byte → Option Nat
  | [hi, lo] => some (dec2 hi lo)
  | _ => none

/-- RAISE: class, ladder, origin, preferred crew, text; 5 + n characters. -/
def readRaise : List Byte → Option RaiseOperands
  | c :: l :: o :: p :: n :: text =>
    if text.length = n.toNat then some ⟨c.toNat, l.toNat, o.toNat, p.toNat, text⟩ else none
  | _ => none

/-- SET_CALLPOINT: station, input, action, ladder, class, text; 6 + n characters. -/
def readPoint : List Byte → Option PointOperands
  | st :: i :: a :: l :: c :: n :: text =>
    if text.length = n.toNat then some ⟨st.toNat, i.toNat, a.toNat, l.toNat, c.toNat, text⟩ else none
  | _ => none

/-- Two-character numbers, one after another. -/
def readPairs : List Byte → List Nat
  | hi :: lo :: rest => dec2 hi lo :: readPairs rest
  | _ => []

/-- SET_CREW: crew, selection, defined, duty, home, name, members; 7 + n + 2m characters. -/
def readCrew : List Byte → Option CrewOperands
  | c :: sel :: d :: u :: h :: n :: rest =>
    let name := rest.take n.toNat
    match rest.drop n.toNat with
    | m :: pagers =>
      if pagers.length = 2 * m.toNat then
        some ⟨c.toNat, sel, d.toNat, u.toNat, h.toNat, name, readPairs pagers⟩
      else none
    | [] => none
  | _ => none

/-- SET_POOL: pool, crews; 2 + k characters. -/
def readPool : List Byte → Option (Nat × List Nat)
  | p :: k :: crews =>
    if crews.length = k.toNat then some (p.toNat, crews.map BitVec.toNat) else none
  | _ => none

/-- Steps of six characters each. -/
def readSteps : List Byte → Option (List StepOperands)
  | [] => some []
  | k :: o :: hi :: lo :: r :: b :: rest =>
    match readSteps rest with
    | some xs => some (⟨k.toNat, o.toNat, dec2 hi lo, r.toNat, b.toNat⟩ :: xs)
    | none => none
  | _ => none

/-- SET_LADDER: ladder, arrival window, restart limit, exhaust beacon, steps; 6 + 6k characters. -/
def readLadder : List Byte → Option LadderOperands
  | l :: hi :: lo :: r :: b :: k :: steps =>
    match readSteps steps with
    | some xs =>
      if xs.length = k.toNat then some ⟨l.toNat, dec2 hi lo, r.toNat, b.toNat, xs⟩ else none
    | none => none
  | _ => none

/-- DIRECT: call, crew, base window, repeats; 6 characters. -/
def readDirect : List Byte → Option DirectOperands
  | [chi, clo, crew, whi, wlo, r] => some ⟨dec2 chi clo, crew.toNat, dec2 whi wlo, r.toNat⟩
  | _ => none

/-- SET_STATION: station, action, group, service setting, neighbours; 5 + k characters. -/
def readStation : List Byte → Option StationOperands
  | st :: a :: g :: v :: k :: ns =>
    if ns.length = k.toNat then some ⟨st.toNat, a.toNat, g.toNat, v.toNat, ns.map BitVec.toNat⟩
    else none
  | _ => none

/-- BEACON_HOLD: beacon, action, class; 3 characters. -/
def readHold : List Byte → Option (Nat × Nat × Nat)
  | [z, a, c] => some (z.toNat, a.toNat, c.toNat)
  | _ => none

/-- SET_BEACON: beacon, idle level; 2 characters. -/
def readBeacon : List Byte → Option (Nat × Nat)
  | [z, v] => some (z.toNat, v.toNat)
  | _ => none

/-- SET_PARAMS: the selection and the value fields; 27 characters. -/
def readParams (p : List Byte) : Option ParamsOperands :=
  if p.length = 27 then
    let b := fun (i : Nat) => (p.getD i 0#8).toNat
    some {
      selection := dec3 (p.getD 0 0#8) (p.getD 1 0#8) (p.getD 2 0#8)
      values := {
        factor := ⟨b 3, b 4, b 5, b 6⟩
        freshness := dec2 (p.getD 7 0#8) (p.getD 8 0#8)
        dedupe := b 9
        silence := dec2 (p.getD 10 0#8) (p.getD 11 0#8)
        pollPeriod := b 12
        airtimeLimit := b 13
        stayLimit := b 14
        missLimit := b 15
        pattern := ⟨⟨b 16, b 17⟩, ⟨b 18, b 19⟩, ⟨b 20, b 21⟩, ⟨b 22, b 23⟩⟩
        rate := dec3 (p.getD 24 0#8) (p.getD 25 0#8) (p.getD 26 0#8) } }
  else none

/-! ### Values -/

/-- A class by its number (R192); none above 3. -/
def Cls.ofCode : Nat → Option Cls
  | 0 => some .routine
  | 1 => some .urgent
  | 2 => some .hazard
  | 3 => some .emergency
  | _ => none

/-- A received 0 in an optional reference means absent (R188). -/
def optRef (n : Nat) : Option Nat := if n = 0 then none else some n

/-- A number lies in lo..hi. -/
def within (lo hi n : Nat) : Bool := decide (lo ≤ n ∧ n ≤ hi)

/-- Bit `i` of a selection. -/
def selected (sel i : Nat) : Bool := sel.testBit i

end Sys2Proof.Machine
end

