-- ==== Sys2Proof/Machine/Requests.lean ====
section
/-!
DEFINITION. What each request does once it is taken: its checks in order, its effect, and the contents
of its reply (the rules of chapters 1 to 8 and 10).
-/

namespace Sys2Proof.Machine

/-- How a request was answered: result code, contents of the reply, and the state it leaves. -/
abbrev Answer := Result × List Byte × State

/-- A request refused by a check changes nothing, and its reply has no contents (R166, R167, R191). -/
def State.refuse (s : State) (r : Result) : Answer := (r, [], s)

/-- A request carried out. -/
def State.answer (s : State) (contents : List Byte) : Answer := (.ok, contents, s)

/-- A payload whose length does not fit the kind gives BAD_LENGTH (R166, R190). -/
def State.withOperands {α : Type} (s : State) (o : Option α) (f : α → Answer) : Answer :=
  match o with
  | none => s.refuse .badLength
  | some x => f x

/-- The configuration store is SAVING. -/
def State.saving (s : State) : Bool := decide (s.store.state = .saving)

/-- Every SET_ request is refused with STORE_BUSY while the store is SAVING (R185). -/
def State.unlessSaving (s : State) (a : Answer) : Answer :=
  if s.saving then s.refuse .storeBusy else a

/-! ### Calls (chapters 1 and 3) -/

/-- RAISE (R9, R10). -/
def reqRaise (p : List Byte) (s : State) : Answer :=
  s.withOperands (readRaise p) fun o =>
    match Cls.ofCode o.cls with
    | none => s.refuse .badValue
    | some cls =>
      if !within 1 16 o.ladder || !within 1 12 o.origin || !within 0 48 o.preferred then
        s.refuse .badValue
      else
        match s.obtainSlot with
        | none => s.refuse .bookFull
        | some t =>
          let n := t.book.nextNumber
          let c := newCall n .plantComputer o.origin cls o.ladder (cleanText 40 o.text)
            (optRef o.preferred) t.clock
          ((t.addCall c).startCall n (optRef o.preferred)).answer (enc2 n)

/-- The call a request names (R18): BAD_VALUE for 0, NO_SUCH_CALL for a number that names no record,
CALL_CLOSED for a CLOSED one. -/
def State.onOpenCall (s : State) (n : Nat) (f : Call → Answer) : Answer :=
  if n = 0 then s.refuse .badValue
  else
    match s.findCall n with
    | none => s.refuse .noSuchCall
    | some c => if c.state = .closed then s.refuse .callClosed else f c

/-- CLEAR (R19). -/
def reqClear (p : List Byte) (s : State) : Answer :=
  s.withOperands (readTwo p) fun n =>
    s.onOpenCall n fun _ => (s.closeCall .cleared n).answer (enc2 n)

/-- CANCEL (R19). -/
def reqCancel (p : List Byte) (s : State) : Answer :=
  s.withOperands (readTwo p) fun n =>
    s.onOpenCall n fun _ => (s.closeCall .cancelled n).answer (enc2 n)

/-- ADVANCE (R68). -/
def reqAdvance (p : List Byte) (s : State) : Answer :=
  s.withOperands (readTwo p) fun n =>
    s.onOpenCall n fun c =>
      if c.state = .paging then (s.advanceCall n).answer (enc2 n) else s.refuse .wrongState

/-- DIRECT (R69, R70). -/
def reqDirect (p : List Byte) (s : State) : Answer :=
  s.withOperands (readDirect p) fun o =>
    s.onOpenCall o.call fun c =>
      if !within 1 48 o.crew then s.refuse .badValue
      else if !(s.crew o.crew).defined then s.refuse .noSuchEntry
      else if c.state = .accepted ∨ c.state = .onScene then s.refuse .wrongState
      else
        (s.directStep o.call o.crew (clamp 5 900 o.window) (clamp 0 7 o.repeats)).answer (enc2 o.call)

/-- QUERY_CALL (R22). -/
def reqQueryCall (p : List Byte) (s : State) : Answer :=
  s.withOperands (readTwo p) fun n =>
    if n = 0 then s.refuse .badValue
    else
      match s.findCall n with
      | none => s.refuse .noSuchCall
      | some c => s.answer (callNotice c)

/-- LIST_CALLS (R23). -/
def reqListCalls (p : List Byte) (s : State) : Answer :=
  s.withOperands (readNothing p) fun _ => s.answer s.listCallsReply

/-! ### Call points (R12) -/

/-- DEFINE of a call point, its checks passed: a new IDLE entry, or new values in an entry that keeps its
state (R12). -/
def State.definePoint (s : State) (st i l : Nat) (cls : Cls) (text : Text) : State :=
  match s.findPoint st i with
  | none => s.setBook { s.book with points := s.book.points ++ [⟨st, i, l, cls, text, .idle⟩] }
  | some _ => s.setBook { s.book with points := s.book.points.map (fun p =>
      if p.station = st ∧ p.input = i then { p with ladder := l, cls := cls, text := text } else p) }

/-- REMOVE of a call point, its checks passed: the entry goes, and its key leaves the pending-press list
(R12). -/
def State.removePoint (s : State) (st i : Nat) : State :=
  s.setBook { s.book with
    points := s.book.points.filter (fun p => !decide (p.station = st ∧ p.input = i))
    pendingPresses := s.book.pendingPresses.filter (fun k => decide (k ≠ (st, i))) }

/-- SET_CALLPOINT with action DEFINE (R12). -/
def State.callpointDefine (s : State) (o : PointOperands) : Answer :=
  match Cls.ofCode o.cls with
  | none => s.refuse .badValue
  | some cls =>
    if !within 1 12 o.station || !within 1 4 o.input || !within 1 16 o.ladder then s.refuse .badValue
    else if s.findPoint o.station o.input = none ∧ Config.maxPoints ≤ s.book.points.length then
      s.refuse .tableFull
    else (s.definePoint o.station o.input o.ladder cls (cleanText 40 o.text)).answer []

/-- SET_CALLPOINT with action REMOVE (R12). -/
def State.callpointRemove (s : State) (o : PointOperands) : Answer :=
  if !within 1 12 o.station || !within 1 4 o.input then s.refuse .badValue
  else
    match s.findPoint o.station o.input with
    | none => s.refuse .noSuchEntry
    | some p =>
      match p.state with
      | .opened _ => s.refuse .wrongState
      | .idle | .pending => (s.removePoint o.station o.input).answer []

/-- SET_CALLPOINT (R12): DEFINE 0, REMOVE 1. -/
def reqSetCallpoint (p : List Byte) (s : State) : Answer :=
  s.withOperands (readPoint p) fun o => s.unlessSaving <|
    if o.action = 0 then s.callpointDefine o
    else if o.action = 1 then s.callpointRemove o
    else s.refuse .badValue

/-! ### Crews, pools and pagers (chapter 2) -/

/-- A directory entry goes in at its place in ascending pager number. -/
def insertEntry (e : PagerEntry) : List PagerEntry → List PagerEntry
  | [] => [e]
  | x :: xs => if e.pager < x.pager then e :: x :: xs else x :: insertEntry e xs

/-- The directory after the members of `crew` change from `old` to `new`: leavers' entries are freed,
joiners' are created with no location, the others are kept (R29, R33). -/
def updateDirectory (crew : Nat) (old new : List Nat) (d : List PagerEntry) : List PagerEntry :=
  let left := d.filter (fun e => !(old.contains e.pager && !new.contains e.pager))
  (new.filter (fun p => !old.contains p)).foldl (fun d p => insertEntry ⟨p, crew, none⟩ d) left

/-- A crew record replaced with its members' directory entries, and posted when a field changed (R26,
R29). -/
def State.replaceCrew (s : State) (c : Nat) (x : Crew) : State :=
  let old := s.crew c
  if x = old then s
  else
    let t := s.setRegistry { s.registry with
      directory := updateDirectory c old.members x.members s.registry.directory }
    t.changeCrew c x

/-- The values SET_CREW selects are in range (R32, check 2). -/
def CrewOperands.valid (o : CrewOperands) : Bool :=
  let sel := fun i => selected o.selection.toNat i
  within 1 48 o.crew &&
    (!sel 0 || within 0 1 o.defined) &&
    (!sel 2 || within 0 1 o.duty) &&
    (!sel 4 || within 1 12 o.home) &&
    (!sel 3 || (decide (o.members.length ≤ 4) && allWithin 1 4095 o.members && distinct o.members)) &&
    !(sel 0 && decide (o.defined = 0) && (sel 1 || sel 2 || sel 3 || sel 4))

/-- The crew record with the selected fields applied (R33). -/
def CrewOperands.apply (o : CrewOperands) (x : Crew) : Crew :=
  let sel := fun i => selected o.selection.toNat i
  { x with
    defined := true
    name := if sel 1 then cleanText 12 o.name else x.name
    duty := if sel 2 then (if o.duty = 0 then .offDuty else .onDuty) else x.duty
    members := if sel 3 then o.members else x.members
    home := if sel 4 then o.home else x.home }

/-- A pager is a member of a crew other than `crew` (R28, R32). -/
def State.carriedElsewhere (s : State) (crew pager : Nat) : Bool :=
  match s.pagerEntry? pager with
  | none => false
  | some e => decide (e.owner ≠ crew)

/-- SET_CREW (R32, R33, R34). -/
def reqSetCrew (p : List Byte) (s : State) : Answer :=
  s.withOperands (readCrew p) fun o => s.unlessSaving <|
    let sel := fun i => selected o.selection.toNat i
    let x := s.crew o.crew
    if !o.valid then s.refuse .badValue
    else if !x.defined ∧ ¬ (sel 0 ∧ o.defined = 1) then s.refuse .noSuchEntry
    else if sel 0 ∧ o.defined = 0 then
      if x.accepted ≠ [] then s.refuse .wrongState
      else (s.replaceCrew o.crew .undefined).answer (enc1 o.crew)
    else if sel 3 ∧ o.members.any (fun m => s.carriedElsewhere o.crew m) then s.refuse .pagerInUse
    else (s.replaceCrew o.crew (o.apply x)).answer (enc1 o.crew)

/-- SET_POOL (R39). -/
def reqSetPool (p : List Byte) (s : State) : Answer :=
  s.withOperands (readPool p) fun o => s.unlessSaving <|
    if !within 1 16 o.1 || !decide (o.2.length ≤ 8) || !allWithin 1 48 o.2 || !distinct o.2 then
      s.refuse .badValue
    else (s.putPool o.1 ⟨o.2, o.2.length⟩).answer []

/-- QUERY_CREW (R40). -/
def reqQueryCrew (p : List Byte) (s : State) : Answer :=
  s.withOperands (readOne p) fun c =>
    if within 1 48 c then s.answer (crewNotice c (s.crew c)) else s.refuse .badValue

/-- QUERY_POOL (R40). -/
def reqQueryPool (p : List Byte) (s : State) : Answer :=
  s.withOperands (readOne p) fun n =>
    if within 1 16 n then s.answer (poolReply (s.pool n)) else s.refuse .badValue

/-- QUERY_PAGER (R41). -/
def reqQueryPager (p : List Byte) (s : State) : Answer :=
  s.withOperands (readTwo p) fun n =>
    if !within 1 4095 n then s.refuse .badValue
    else
      match s.pagerEntry? n with
      | none => s.refuse .noSuchEntry
      | some e => s.answer (s.pagerReply e)

/-! ### Ladders (chapter 3) -/

/-- The kind of a step with its operand, in range (R46, R47); the operand of REFER and NONE is not
checked. -/
def StepOperands.stepKind (o : StepOperands) : Option StepKind :=
  if o.kind = 0 then (if within 1 48 o.operand then some (.crew o.operand) else none)
  else if o.kind = 1 then (if within 1 16 o.operand then some (.poolOne o.operand) else none)
  else if o.kind = 2 then (if within 1 16 o.operand then some (.poolAll o.operand) else none)
  else if o.kind = 3 then some .refer
  else if o.kind = 4 then some .noTarget
  else none

/-- A step checked and its timing values clamped (R47, R48). -/
def StepOperands.toStep (o : StepOperands) : Option LadderStep :=
  match o.stepKind with
  | none => none
  | some k =>
    if within 0 8 o.beacon then
      some ⟨k, clamp 5 900 o.window, clamp 0 7 o.repeats, optRef o.beacon⟩
    else none

/-- The steps of a list, when each passes its check. -/
def toSteps : List StepOperands → Option (List LadderStep)
  | [] => some []
  | o :: os =>
    match o.toStep, toSteps os with
    | some x, some xs => some (x :: xs)
    | _, _ => none

/-- The ladder a SET_LADDER gives, checked and clamped (R47, R48). -/
def LadderOperands.toLadder (o : LadderOperands) : Option Ladder :=
  if !within 1 16 o.ladder || !within 1 8 o.steps.length || !within 0 3 o.restartLimit ||
      !within 0 8 o.exhaustBeacon then none
  else
    match toSteps o.steps with
    | none => none
    | some xs => some ⟨xs, clamp 30 900 o.arrival, o.restartLimit, optRef o.exhaustBeacon⟩

/-- SET_LADDER (R47, R48). -/
def reqSetLadder (p : List Byte) (s : State) : Answer :=
  s.withOperands (readLadder p) fun o => s.unlessSaving <|
    match o.toLadder with
    | none => s.refuse .badValue
    | some l => (s.setLadders (setRow s.ladders o.ladder l)).answer (ladderReply o.ladder l)

/-- QUERY_LADDER (R49). -/
def reqQueryLadder (p : List Byte) (s : State) : Answer :=
  s.withOperands (readOne p) fun n =>
    if within 1 16 n then s.answer (ladderReply n (s.ladder n)) else s.refuse .badValue

/-! ### Acknowledgements and queues (chapters 4 and 6) -/

/-- LIST_ACKS (R78). -/
def reqListAcks (p : List Byte) (s : State) : Answer :=
  s.withOperands (readNothing p) fun _ => s.answer s.listAcksReply

/-- QUERY_QUEUE (R113). -/
def reqQueryQueue (p : List Byte) (s : State) : Answer :=
  s.withOperands (readOne p) fun st =>
    if within 1 12 st then s.answer (s.queueReply st) else s.refuse .badValue

/-! ### Stations (chapter 7) -/

/-- The neighbour list a SET_STATION gives is allowed for the station (R100). -/
def neighboursAllowed (st : Nat) (ns : List Nat) : Bool :=
  decide (ns.length ≤ 4) && allWithin 1 12 ns && !ns.contains st && distinct ns

/-- A service setting by its code; the states SUSPECT and SILENT are no settings (R148). -/
def settingOf (n : Nat) : Option Service :=
  if n = 0 then some .inService else if n = 3 then some .outOfService else none

/-- The channel group of a station changes (R124, R137): a grant it holds is released, its in-flight items
return without a miss, a BURST on the line is detached, and both groups' arbiters act, that of the old group first:
the model's choice (entry 39). -/
def State.changeGroup (s : State) (st g : Nat) : State :=
  let old := (s.station st).group
  if old = g then s
  else
    let flying := decide ((s.queue st).phase = .inFlight)
    let s := s.releaseGrant st
    let s := if flying then
        (s.returnItems st).setLine { s.line with exchange := s.line.exchange.map (fun x =>
          if x.station = st ∧ x.kind = .burst then { x with detached := true } else x) }
      else s
    let s := s.putStation st { s.station st with group := g }
    (s.arbitrate old).arbitrate g

/-- A defined station enters OUT_OF_SERVICE (R123, R137, R149). -/
def State.leaveService (s : State) (st : Nat) : State :=
  let s := s.putStation st { s.station st with
    service := .outOfService
    due := none
    pollWaits := false }
  ((s.dropFollowUp st).voidExchange st).flush st

/-- A station enters IN_SERVICE from OUT_OF_SERVICE or from undefined (R141, R144, R149). -/
def State.enterService (s : State) (st : Nat) : State :=
  let s := s.putStation st { s.station st with
    service := .inService
    misses := 0
    resync := true
    due := some s.clock
    pollWaits := true }
  s.arbitrate (s.station st).group

/-- The fields of a station whose change posts it (R149, R150). -/
def Station.reported (x : Station) : Bool × Nat × Service × Service × Nat × List Nat :=
  (x.defined, x.group, x.setting, x.service, x.misses, x.neighbours)

/-- DEFINE of an undefined station (R149). -/
def State.defineStation (s : State) (st g : Nat) (v : Service) (ns : List Nat) : State :=
  let s := s.changeStation st ⟨true, g, v, .outOfService, 0, none, false, 0#8, true, ns⟩
  match v with
  | .inService => s.enterService st
  | _ => s

/-- DEFINE of a defined station (R149). -/
def State.redefineStation (s : State) (st g : Nat) (v : Service) (ns : List Nat) : State :=
  let before := s.station st
  let leaves := decide (v = .outOfService)
  let enters := decide (v = .inService ∧ before.service = .outOfService)
  let after : Station := { before with
    group := g
    setting := v
    neighbours := ns
    service := if leaves then .outOfService else if enters then .inService else before.service
    misses := if enters then 0 else before.misses }
  let s := if after.reported = before.reported then s else s.post (.station st)
  let s := s.putStation st { before with setting := v, neighbours := ns }
  let s := s.changeGroup st g
  if leaves then s.leaveService st else if enters then s.enterService st else s

/-- REMOVE of a defined station (R124, R137, R149). -/
def State.removeStation (s : State) (st : Nat) : State :=
  let s := s.post (.station st)
  let s := s.leaveService st
  s.putStation st .undefined

/-- SET_STATION with action DEFINE (R148, R149). -/
def State.stationDefine (s : State) (o : StationOperands) : Answer :=
  match settingOf o.setting with
  | none => s.refuse .badValue
  | some v =>
    if !within 1 12 o.station || !within 1 4 o.group || !neighboursAllowed o.station o.neighbours then
      s.refuse .badValue
    else if (s.station o.station).defined then
      (s.redefineStation o.station o.group v o.neighbours).answer (enc1 o.station)
    else (s.defineStation o.station o.group v o.neighbours).answer (enc1 o.station)

/-- SET_STATION with action REMOVE (R148, R149). -/
def State.stationRemove (s : State) (o : StationOperands) : Answer :=
  if !within 1 12 o.station then s.refuse .badValue
  else if !(s.station o.station).defined then s.refuse .noSuchEntry
  else (s.removeStation o.station).answer (enc1 o.station)

/-- SET_STATION (R148, R149): DEFINE 0, REMOVE 1. -/
def reqSetStation (p : List Byte) (s : State) : Answer :=
  s.withOperands (readStation p) fun o => s.unlessSaving <|
    if o.action = 0 then s.stationDefine o
    else if o.action = 1 then s.stationRemove o
    else s.refuse .badValue

/-- QUERY_STATION (R151). -/
def reqQueryStation (p : List Byte) (s : State) : Answer :=
  s.withOperands (readOne p) fun st =>
    if within 1 12 st then s.answer (s.stationReply st) else s.refuse .badValue

/-! ### Beacons (chapter 8) -/

/-- A beacon's manual hold is written, and the beacon acts (R157, R158). -/
def State.setHold (s : State) (z : Nat) (h : Option Cls) : State :=
  (s.putBeacon z { s.beacon z with hold := h }).actBeacon z

/-- The contents of a BEACON_HOLD reply (R192). -/
def State.holdReply (s : State) (z : Nat) : List Byte := enc1 z ++ beaconBlock s.clock (s.beacon z)

/-- A request whose reply shows a beacon as it stands after it. -/
def State.answerBeacon (s : State) (z : Nat) : Answer := s.answer (s.holdReply z)

/-- BEACON_HOLD with action HOLD (R158). -/
def State.beaconHold (s : State) (z cls : Nat) : Answer :=
  match Cls.ofCode cls with
  | none => s.refuse .badValue
  | some c => if within 1 8 z then (s.setHold z (some c)).answerBeacon z else s.refuse .badValue

/-- BEACON_HOLD with action RELEASE (R158). -/
def State.beaconRelease (s : State) (z : Nat) : Answer :=
  if within 1 8 z then (s.setHold z none).answerBeacon z else s.refuse .badValue

/-- BEACON_HOLD (R158): HOLD 0, RELEASE 1. -/
def reqBeaconHold (p : List Byte) (s : State) : Answer :=
  s.withOperands (readHold p) fun o =>
    if o.2.1 = 0 then s.beaconHold o.1 o.2.2
    else if o.2.1 = 1 then s.beaconRelease o.1
    else s.refuse .badValue

/-- An idle level by its code (R192). -/
def levelOf (n : Nat) : Option Level :=
  if n = 0 then some .low else if n = 1 then some .high else none

/-- A beacon takes an idle level: its output moves with it (R159). -/
def State.setIdle (s : State) (z : Nat) (v : Level) : State :=
  let b := s.beacon z
  s.putBeacon z { b with
    idle := v
    output := match b.driving with
      | none => v.out
      | some d => levelAt v d s.clock }

/-- SET_BEACON (R159). A level already set changes nothing. -/
def reqSetBeacon (p : List Byte) (s : State) : Answer :=
  s.withOperands (readBeacon p) fun o => s.unlessSaving <|
    match levelOf o.2 with
    | none => s.refuse .badValue
    | some v =>
      if !within 1 8 o.1 then s.refuse .badValue
      else if (s.beacon o.1).idle = v then s.answer (enc1 o.1)
      else (s.setIdle o.1 v).answer (enc1 o.1)

/-- QUERY_BEACONS (R160). -/
def reqQueryBeacons (p : List Byte) (s : State) : Answer :=
  s.withOperands (readNothing p) fun _ => s.answer s.beaconsReply

/-! ### The parameter set and the part (chapter 10) -/

/-- A selected value clamped to its range, or the value in use (R183). -/
def pick (sel : Bool) (lo hi given inUse : Nat) : Nat := if sel then clamp lo hi given else inUse

/-- A selected beacon pair: the period clamped to 2..32 and the on-time to 1..P (R183). -/
def pickPattern (sel : Bool) (given inUse : Pattern) : Pattern :=
  if sel then ⟨clamp 2 32 given.period, clamp 1 (clamp 2 32 given.period) given.onTime⟩ else inUse

/-- The greatest listed rate not above the one given, or 9600 (R183). -/
def listedRate (n : Nat) : Nat :=
  if 115200 ≤ n then 115200 else if 57600 ≤ n then 57600 else if 38400 ≤ n then 38400
  else if 19200 ≤ n then 19200 else 9600

/-- The parameter set after a SET_PARAMS: each selected value clamped (R183, R189). -/
def ParamsOperands.apply (o : ParamsOperands) (u : Params) : Params :=
  let sel := fun i => selected o.selection i
  let v := o.values
  { factor :=
      ⟨pick (sel 0) 1 16 v.factor.routine u.factor.routine,
       pick (sel 1) 1 16 v.factor.urgent u.factor.urgent,
       pick (sel 2) 1 16 v.factor.hazard u.factor.hazard,
       pick (sel 3) 1 16 v.factor.emergency u.factor.emergency⟩
    freshness := pick (sel 4) 30 3600 v.freshness u.freshness
    dedupe := pick (sel 5) 2 60 v.dedupe u.dedupe
    silence := pick (sel 6) 5 300 v.silence u.silence
    pollPeriod := pick (sel 7) 2 16 v.pollPeriod u.pollPeriod
    airtimeLimit := pick (sel 8) 16 120 v.airtimeLimit u.airtimeLimit
    stayLimit := pick (sel 9) 1 4 v.stayLimit u.stayLimit
    missLimit := pick (sel 10) 2 8 v.missLimit u.missLimit
    pattern :=
      ⟨pickPattern (sel 11) v.pattern.routine u.pattern.routine,
       pickPattern (sel 12) v.pattern.urgent u.pattern.urgent,
       pickPattern (sel 13) v.pattern.hazard u.pattern.hazard,
       pickPattern (sel 14) v.pattern.emergency u.pattern.emergency⟩
    rate := if sel 15 then listedRate v.rate else u.rate }

/-- A driving beacon whose pattern values a SET_PARAMS changed restarts its phase (R157, R184). -/
def State.restartIfChanged (before : PerClass Pattern) (z : Nat) (s : State) : State :=
  match (s.beacon z).driving with
  | none => s
  | some d =>
    if s.store.params.pattern.get d.cls = before.get d.cls then s else s.restartPhase z d.cls

/-- The silence timer is armed at the clock value + S (R174). -/
def State.armSilence (s : State) : State :=
  s.setLink { s.link with silence := some (tickAfter s.clock (s.store.params.silence * 8)) }

/-- The parameter set is replaced, with the effects that come at once (R174, R184). -/
def State.useParams (s : State) (p : Params) : State :=
  let before := s.store.params
  let s := s.setStore { s.store with params := p }
  let s := forEach (List.range' 1 8) (State.restartIfChanged before.pattern) s
  if p.silence ≠ before.silence ∧ s.link.state = .online then s.armSilence else s

/-- SET_PARAMS (R183, R184). -/
def reqSetParams (p : List Byte) (s : State) : Answer :=
  s.withOperands (readParams p) fun o => s.unlessSaving <|
    (s.useParams (o.apply s.store.params)).answer (paramsReply (o.apply s.store.params))

/-- What the image holds of a crew. -/
def Crew.stored (c : Crew) : StoredCrew := ⟨c.defined, c.name, c.duty, c.members, c.home⟩

/-- What the image holds of a station. -/
def Station.stored (x : Station) : StoredStation := ⟨x.defined, x.group, x.setting, x.neighbours⟩

/-- What the image holds of a call point. -/
def CallPoint.stored (p : CallPoint) : StoredPoint := ⟨p.station, p.input, p.ladder, p.cls, p.text⟩

/-- The copy of every stored item, as the tables hold them (R178, R185). -/
def State.image (s : State) : Image where
  params := s.store.params
  crews := s.registry.crews.map Crew.stored
  pools := s.registry.pools.map Pool.crews
  ladders := s.ladders
  stations := s.line.stations.map Station.stored
  points := s.book.points.map CallPoint.stored
  idle := s.beacons.map Beacon.idle

/-- STORE (R185): the copy is taken, the store is SAVING, the marker is made invalid and the part record
is posted. -/
def reqStore (p : List Byte) (s : State) : Answer :=
  s.withOperands (readNothing p) fun _ => s.unlessSaving <|
    ((s.setStore { s.store with
      copy := some s.image
      state := .saving
      eeprom := .invalid }).post .part).answer []

/-- QUERY_PART (R187). -/
def reqQueryPart (p : List Byte) (s : State) : Answer :=
  s.withOperands (readNothing p) fun _ => s.answer s.partReply

/-- RESET (R176): the reset is pending until its reply has been sent. -/
def reqReset (p : List Byte) (s : State) : Answer :=
  s.withOperands (readNothing p) fun _ =>
    (s.setLink { s.link with resetPending := true }).answer []

end Sys2Proof.Machine
end

