-- ==== Sys2Proof/Machine/HostLink.lean ====
section
/-!
DEFINITION. The host link (chapter 9): the receiver, the taking of requests and the ends of frames; with the meaning of
every request command.
-/

namespace Sys2Proof.Machine

/-! ### The receiver (9.1, 9.2) -/

/-- A valid frame as the receiver hands it on (R166). -/
structure RxFrame where
  kind : Byte
  tag : Byte
  payload : List Byte
deriving DecidableEq, Repr

/-- What the characters after a start character show (R163, R164). -/
inductive FrameRead where
  /-- The frame is still being received. -/
  | incomplete
  /-- A wrong length, or a complete frame whose check does not agree. -/
  | discard
  | valid (f : RxFrame)
deriving DecidableEq, Repr

/-- The frame begun by a start character, from the characters after it (R163, R164). -/
def readFrame : List Byte → FrameRead
  | [] => .incomplete
  | n :: rest =>
    if Config.maxPayload < n.toNat then .discard
    else if rest.length < n.toNat + 4 then .incomplete
    else
      let body := rest.take (n.toNat + 2)
      match body with
      | kind :: tag :: payload =>
        if (rest.drop (n.toNat + 2)).take 2 = encCheck (crc (n :: body)) then
          .valid ⟨kind, tag, payload⟩
        else .discard
      | _ => .discard

/-- The receiver at work on characters (R163, R164): the valid frames they complete, in order, and the
characters it still holds. After a discarded frame the search resumes with the character that followed
its start character; after a valid frame of n payload characters it resumes n + 6 characters on. The
first argument counts the characters of a valid frame still to be passed over. -/
def scan : Nat → List Byte → List RxFrame × List Byte
  | _, [] => ([], [])
  | skip + 1, _ :: rest => scan skip rest
  | 0, c :: rest =>
    if c = Config.startChar then
      match readFrame rest with
      | .incomplete => ([], c :: rest)
      | .discard => scan 0 rest
      | .valid f =>
        let r := scan (f.payload.length + 5) rest
        (f :: r.1, r.2)
    else scan 0 rest

/-- The receiver that holds these characters, the rate in use not having changed since the first of them. -/
def Receiver.holding : List Byte → Receiver
  | [] => .searching
  | cs => .receiving cs false

/-- The receiver takes up characters (R163, R164): the valid frames they complete, in order, and what it then
holds. A frame during which the rate in use changed is completed by its length and then fails its check, and the
search resumes with the character after its start character (R180). -/
def Receiver.take (r : Receiver) (cs : List Byte) : List RxFrame × Receiver :=
  let scanned := fun (xs : List Byte) => ((scan 0 xs).1, Receiver.holding (scan 0 xs).2)
  match r with
  | .searching => scanned cs
  | .receiving held false => scanned (held ++ cs)
  | .receiving held true =>
    match held ++ cs with
    | [] => ([], .searching)
    | c :: rest =>
      match readFrame rest with
      | .incomplete => ([], .receiving (c :: rest) true)
      | .discard | .valid _ => scanned rest

/-! ### Taking a request (9.3) -/

/-- A valid frame shows that the plant computer is there: the silence timer is reloaded, and a LOCAL link
returns to ONLINE with the part record posted (R166 step 2, R175). -/
def State.heardHost (s : State) : State :=
  if s.link.state = .local then
    ((s.setLink { s.link with state := .online }).armSilence).post .part
  else s.armSilence

/-- The block that owns a request carries it out or refuses it; a kind that names no request is answered
UNKNOWN_REQUEST (R166, R189). -/
def serve (kind : Byte) (p : List Byte) (s : State) : Answer :=
  match kind.toNat with
  | 0x01 => reqRaise p s
  | 0x02 => reqClear p s
  | 0x03 => reqCancel p s
  | 0x04 => reqQueryCall p s
  | 0x05 => reqListCalls p s
  | 0x06 => reqSetCallpoint p s
  | 0x07 => reqSetCrew p s
  | 0x08 => reqSetPool p s
  | 0x09 => reqQueryCrew p s
  | 0x0A => reqQueryPool p s
  | 0x0B => reqQueryPager p s
  | 0x0C => reqSetLadder p s
  | 0x0D => reqQueryLadder p s
  | 0x0E => reqAdvance p s
  | 0x0F => reqDirect p s
  | 0x10 => reqListAcks p s
  | 0x11 => reqQueryQueue p s
  | 0x12 => reqSetStation p s
  | 0x13 => reqQueryStation p s
  | 0x14 => reqBeaconHold p s
  | 0x15 => reqQueryBeacons p s
  | 0x16 => reqSetBeacon p s
  | 0x17 => reqSetParams p s
  | 0x18 => reqStore p s
  | 0x19 => reqQueryPart p s
  | 0x1A => reqReset p s
  | _ => s.refuse .unknownRequest

/-- The kind a reply carries: the request's plus 0x80, or 0xFF for a request kind of 0x80 or above
(R189). -/
def replyKind (kind : Byte) : Byte := if kind.toNat < 0x80 then kind + 0x80#8 else 0xFF#8

/-- A reply is formed and appended to the reply queue (R167). -/
def State.queueReplyTo (kind tag : Byte) (a : Answer) : State :=
  a.2.2.setLink { a.2.2.link with
    replies := a.2.2.link.replies ++ [⟨replyKind kind, tag, a.1, a.2.1, 1⟩] }

/-- A request is taken (R166, R167). -/
def State.takeRequest (s : State) (f : RxFrame) : State :=
  State.queueReplyTo f.kind f.tag (serve f.kind f.payload s)

/-- The host link acts on a valid frame (R166): discarded in STARTING; otherwise the host has been heard,
and the request is taken unless 8 replies wait or a reset is pending. -/
def State.actOnFrame (f : RxFrame) (s : State) : State :=
  if s.link.state = .starting then s
  else
    let s := s.heardHost
    if Config.maxReplies ≤ s.link.replies.length then s
    else if s.link.resetPending then s
    else s.takeRequest f

/-- A valid frame is taken whole, before the next is examined (R166), and a frame that it makes ready on a free path
starts (R169). -/
def State.takeFrame (f : RxFrame) (s : State) : State := (State.actOnFrame f s).sendReady

/-- Characters arrive on HRXD: the receiver takes them up and the frames they complete are acted on, one
after another (R163, R166). Nothing is received while the controller is held in reset (R179). -/
def State.receiveChars (s : State) (cs : List Byte) : State :=
  if s.store.rstnLow then s
  else
    let r := s.link.rx.take cs
    forEach r.1 State.takeFrame (s.setLink { s.link with rx := r.2 })

/-- A frame of the given kind, tag and payload arrives, its check agreeing (R163). -/
def State.receiveFrame (s : State) (kind tag : Byte) (p : List Byte) : State :=
  s.receiveChars (encodeFrame kind tag p)

/-- The frame being received is discarded, and its characters are not examined again (R165). -/
def State.dropFrame (s : State) : State := s.setLink { s.link with rx := .searching }

/-- Characters arrive and then a condition ends the frame being received (R165). -/
def State.receiveBroken (s : State) (cs : List Byte) : State := (s.receiveChars cs).dropFrame

/-- The receiver takes what the line brings at the end of a character: the character, or an error or a break, which
ends the frame being received (R162, R165). -/
def State.takeSignal (x : HostSignal) (s : State) : State :=
  match x with
  | .character c => s.receiveChars [c]
  | .characterError | .lineBreak => s.dropFrame

/-- The levels of HRXD, bit time by bit time, from an idle line on (R162). -/
def State.receiveLevels (s : State) (ls : List LineLevel) : State :=
  forEach (readHrxd .idle ls).1 State.takeSignal s

/-- The level of HTXD `k` bit times after the frame on the outbound path began: its characters without gaps, and the
mark level after them, or where none is sent (R162). -/
def State.htxd (s : State) (k : Nat) : LineLevel :=
  match s.link.sending with
  | none => .mark
  | some f => (f.chars.flatMap hostBits).getD k .mark

/-! ### The outbound path (9.4, 9.5) -/

/-- HCTS_ASSERTED: HCTS is found asserted, and a ready frame starts on the free path (R169). It counts as asserted
until its level is sampled anew (entry 6). -/
def execHctsAsserted (s : State) : Host.Outcome State Fault Refusal :=
  .next (s.setLink { s.link with hcts := true }).sendReady

/-- The record of a CLOSED call whose notice has been sent is freed (R7). -/
def State.freeSent (s : State) (f : Frame) : State :=
  match f.frees with
  | none => s
  | some n => s.removeCall n

/-- The controller resets (R179): every block takes its reset state and the start-up load begins; the
waiting commands, the EEPROM and the level of RSTN stand as they are. -/
def State.resetBy (s : State) (cause : Cause) (rstnLow : Bool) : State :=
  State.afterReset cause s.pending s.store.eeprom rstnLow

/-- FRAME_SENT: the last character of the frame being sent leaves (R169): a closed call's record is freed
(R7), the RESET reply's end resets the controller (R176), and otherwise the next frame starts when HCTS is
found asserted. With no frame being sent it is the sampling of HCTS on the free path alone (entry 6). -/
def execFrameSent (hcts : Bool) (s : State) : Host.Outcome State Fault Refusal :=
  match s.link.sending with
  | none => .next (s.setLink { s.link with hcts := hcts }).sendReady
  | some f =>
    let t := (s.setLink { s.link with sending := none, hcts := hcts }).freeSent f
    if f.resets then .next (t.resetBy .request t.store.rstnLow) else .next t.sendReady

/-! ### The request commands -/

/-- RAISE. -/
def execRaise (tag : Byte) (p : List Byte) (s : State) : Host.Outcome State Fault Refusal :=
  .next (s.receiveFrame 0x01#8 tag p)

/-- CLEAR. -/
def execClear (tag : Byte) (p : List Byte) (s : State) : Host.Outcome State Fault Refusal :=
  .next (s.receiveFrame 0x02#8 tag p)

/-- CANCEL. -/
def execCancel (tag : Byte) (p : List Byte) (s : State) : Host.Outcome State Fault Refusal :=
  .next (s.receiveFrame 0x03#8 tag p)

/-- QUERY_CALL. -/
def execQueryCall (tag : Byte) (p : List Byte) (s : State) : Host.Outcome State Fault Refusal :=
  .next (s.receiveFrame 0x04#8 tag p)

/-- LIST_CALLS. -/
def execListCalls (tag : Byte) (p : List Byte) (s : State) : Host.Outcome State Fault Refusal :=
  .next (s.receiveFrame 0x05#8 tag p)

/-- SET_CALLPOINT_DEFINE (action DEFINE in the payload). -/
def execSetCallpointDefine (tag : Byte) (p : List Byte) (s : State) : Host.Outcome State Fault Refusal :=
  .next (s.receiveFrame 0x06#8 tag p)

/-- SET_CALLPOINT_REMOVE (action REMOVE in the payload). -/
def execSetCallpointRemove (tag : Byte) (p : List Byte) (s : State) : Host.Outcome State Fault Refusal :=
  .next (s.receiveFrame 0x06#8 tag p)

/-- SET_CREW. -/
def execSetCrew (tag : Byte) (p : List Byte) (s : State) : Host.Outcome State Fault Refusal :=
  .next (s.receiveFrame 0x07#8 tag p)

/-- SET_POOL. -/
def execSetPool (tag : Byte) (p : List Byte) (s : State) : Host.Outcome State Fault Refusal :=
  .next (s.receiveFrame 0x08#8 tag p)

/-- QUERY_CREW. -/
def execQueryCrew (tag : Byte) (p : List Byte) (s : State) : Host.Outcome State Fault Refusal :=
  .next (s.receiveFrame 0x09#8 tag p)

/-- QUERY_POOL. -/
def execQueryPool (tag : Byte) (p : List Byte) (s : State) : Host.Outcome State Fault Refusal :=
  .next (s.receiveFrame 0x0A#8 tag p)

/-- QUERY_PAGER. -/
def execQueryPager (tag : Byte) (p : List Byte) (s : State) : Host.Outcome State Fault Refusal :=
  .next (s.receiveFrame 0x0B#8 tag p)

/-- SET_LADDER. -/
def execSetLadder (tag : Byte) (p : List Byte) (s : State) : Host.Outcome State Fault Refusal :=
  .next (s.receiveFrame 0x0C#8 tag p)

/-- QUERY_LADDER. -/
def execQueryLadder (tag : Byte) (p : List Byte) (s : State) : Host.Outcome State Fault Refusal :=
  .next (s.receiveFrame 0x0D#8 tag p)

/-- ADVANCE. -/
def execAdvance (tag : Byte) (p : List Byte) (s : State) : Host.Outcome State Fault Refusal :=
  .next (s.receiveFrame 0x0E#8 tag p)

/-- DIRECT. -/
def execDirect (tag : Byte) (p : List Byte) (s : State) : Host.Outcome State Fault Refusal :=
  .next (s.receiveFrame 0x0F#8 tag p)

/-- LIST_ACKS. -/
def execListAcks (tag : Byte) (p : List Byte) (s : State) : Host.Outcome State Fault Refusal :=
  .next (s.receiveFrame 0x10#8 tag p)

/-- QUERY_QUEUE. -/
def execQueryQueue (tag : Byte) (p : List Byte) (s : State) : Host.Outcome State Fault Refusal :=
  .next (s.receiveFrame 0x11#8 tag p)

/-- SET_STATION_DEFINE (action DEFINE in the payload). -/
def execSetStationDefine (tag : Byte) (p : List Byte) (s : State) : Host.Outcome State Fault Refusal :=
  .next (s.receiveFrame 0x12#8 tag p)

/-- SET_STATION_REMOVE (action REMOVE in the payload). -/
def execSetStationRemove (tag : Byte) (p : List Byte) (s : State) : Host.Outcome State Fault Refusal :=
  .next (s.receiveFrame 0x12#8 tag p)

/-- QUERY_STATION. -/
def execQueryStation (tag : Byte) (p : List Byte) (s : State) : Host.Outcome State Fault Refusal :=
  .next (s.receiveFrame 0x13#8 tag p)

/-- BEACON_HOLD (action HOLD in the payload). -/
def execBeaconHold (tag : Byte) (p : List Byte) (s : State) : Host.Outcome State Fault Refusal :=
  .next (s.receiveFrame 0x14#8 tag p)

/-- BEACON_RELEASE (action RELEASE in the payload). -/
def execBeaconRelease (tag : Byte) (p : List Byte) (s : State) : Host.Outcome State Fault Refusal :=
  .next (s.receiveFrame 0x14#8 tag p)

/-- QUERY_BEACONS. -/
def execQueryBeacons (tag : Byte) (p : List Byte) (s : State) : Host.Outcome State Fault Refusal :=
  .next (s.receiveFrame 0x15#8 tag p)

/-- SET_BEACON. -/
def execSetBeacon (tag : Byte) (p : List Byte) (s : State) : Host.Outcome State Fault Refusal :=
  .next (s.receiveFrame 0x16#8 tag p)

/-- SET_PARAMS. -/
def execSetParams (tag : Byte) (p : List Byte) (s : State) : Host.Outcome State Fault Refusal :=
  .next (s.receiveFrame 0x17#8 tag p)

/-- STORE. -/
def execStore (tag : Byte) (p : List Byte) (s : State) : Host.Outcome State Fault Refusal :=
  .next (s.receiveFrame 0x18#8 tag p)

/-- QUERY_PART. -/
def execQueryPart (tag : Byte) (p : List Byte) (s : State) : Host.Outcome State Fault Refusal :=
  .next (s.receiveFrame 0x19#8 tag p)

/-- RESET. -/
def execReset (tag : Byte) (p : List Byte) (s : State) : Host.Outcome State Fault Refusal :=
  .next (s.receiveFrame 0x1A#8 tag p)

/-- UNKNOWN_REQUEST: a valid frame of any kind; one that names no request is answered so (R166). -/
def execUnknownRequest (kind tag : Byte) (p : List Byte) (s : State) :
    Host.Outcome State Fault Refusal :=
  .next (s.receiveFrame kind tag p)

/-! ### Damaged frames -/

/-- FRAME_BAD_CHECK: the characters of a complete frame arrive, with this check (R164). -/
def execFrameBadCheck (kind tag : Byte) (p : List Byte) (check : BitVec 16) (s : State) :
    Host.Outcome State Fault Refusal :=
  .next (s.receiveChars
    (Config.startChar :: BitVec.ofNat 8 p.length :: kind :: tag :: (p ++ encCheck check)))

/-- WRONG_LENGTH: a start character and a length character arrive (R164). -/
def execWrongLength (length : Byte) (s : State) : Host.Outcome State Fault Refusal :=
  .next (s.receiveChars [Config.startChar, length])

/-- FRAME_GAP: characters arrive, and then more than 20 character times pass (R165). -/
def execFrameGap (chars : List Byte) (s : State) : Host.Outcome State Fault Refusal :=
  .next (s.receiveBroken chars)

/-- BREAK: characters arrive, and then a break (R162, R165). -/
def execLineBreak (chars : List Byte) (s : State) : Host.Outcome State Fault Refusal :=
  .next (State.takeSignal .lineBreak (s.receiveChars chars))

/-- CHARACTER_ERROR: characters arrive, and then one with a missing stop bit, not a break (R162, R165). -/
def execCharacterError (chars : List Byte) (s : State) : Host.Outcome State Fault Refusal :=
  .next (State.takeSignal .characterError (s.receiveChars chars))

end Sys2Proof.Machine
end

