-- ==== Sys2Proof/Machine/StartUp.lean ====
section
/-!
DEFINITION. The configuration store (chapter 10): resets, the start-up load, and the end of a STORE.
-/

namespace Sys2Proof.Machine

/-! ### Resets (R179) -/

/-- POWER_ON: the supply rises; the controller resets with cause POWER_ON. While RSTN is low it stays in
reset, and the cause stays POWER_ON. -/
def execPowerOn (s : State) : Host.Outcome State Fault Refusal :=
  .next (s.resetBy .powerOn s.store.rstnLow)

/-- RSTN_LOW: RSTN is driven low, and the controller holds in reset; the cause of the reset that follows
is RESET_LINE. RSTN already low changes nothing. -/
def execRstnLow (s : State) : Host.Outcome State Fault Refusal :=
  if s.store.rstnLow then .next s else .next (s.resetBy .resetLine true)

/-- RSTN_HIGH: RSTN returns high, and the reset proceeds to the start-up load with the cause it has:
RESET_LINE, or POWER_ON when RSTN was low while the supply rose. RSTN already high changes nothing. -/
def execRstnHigh (s : State) : Host.Outcome State Fault Refusal :=
  if s.store.rstnLow then .next (s.resetBy s.store.cause false) else .next s

/-! ### The image (R178, R180) -/

/-- A text fits its limit and holds characters of 0x20..0x7E alone. -/
def textInRange (limit : Nat) (t : Text) : Bool :=
  decide (t.length ≤ limit) && t.all (fun c => decide (0x20 ≤ c.toNat ∧ c.toNat ≤ 0x7E))

/-- A stored crew is within its ranges (R25, R180). That an undefined one must hold the undefined values of R25, and is
inconsistent with any other, is the model's choice (entry 34). -/
def StoredCrew.inRange (c : StoredCrew) : Bool :=
  textInRange 12 c.name && decide (c.members.length ≤ 4) && allWithin 1 4095 c.members &&
    distinct c.members && within 1 12 c.home &&
    (c.defined || decide (c = Crew.undefined.stored))

/-- A stored pool is within its ranges (R35). -/
def poolInRange (p : List Nat) : Bool := decide (p.length ≤ 8) && allWithin 1 48 p && distinct p

/-- An optional beacon is within 1..8. -/
def beaconInRange : Option Nat → Bool
  | none => true
  | some z => within 1 8 z

/-- The operand of a step kind is within its range (R46). -/
def StepKind.inRange : StepKind → Bool
  | .crew c => within 1 48 c
  | .poolOne p => within 1 16 p
  | .poolAll p => within 1 16 p
  | .refer => true
  | .noTarget => true

/-- A step is within its ranges (R46). -/
def LadderStep.inRange (x : LadderStep) : Bool :=
  x.kind.inRange && within 5 900 x.window && within 0 7 x.repeats && beaconInRange x.beacon

/-- A ladder is within its ranges (R45). -/
def Ladder.inRange (l : Ladder) : Bool :=
  within 1 8 l.steps.length && l.steps.all LadderStep.inRange && within 30 900 l.arrival &&
    within 0 3 l.restartLimit && beaconInRange l.exhaustBeacon

/-- A stored station, number `st`, is within its ranges (R99, R138, R180). That an undefined one must hold the undefined
values of R138, and is inconsistent with any other, is the model's choice (entry 34). -/
def StoredStation.inRange (st : Nat) (x : StoredStation) : Bool :=
  within 1 4 x.group && decide (x.setting = .inService ∨ x.setting = .outOfService) &&
    neighboursAllowed st x.neighbours && (x.defined || decide (x = Station.undefined.stored))

/-- A stored call point is within its ranges (R11). -/
def StoredPoint.inRange (p : StoredPoint) : Bool :=
  within 1 12 p.station && within 1 4 p.input && within 1 16 p.ladder && textInRange 40 p.text

/-- A beacon pattern is within its ranges (R155). -/
def Pattern.inRange (p : Pattern) : Bool := within 2 32 p.period && within 1 p.period p.onTime

/-- A parameter set is within the ranges of R182. -/
def Params.inRange (p : Params) : Bool :=
  within 1 16 p.factor.routine && within 1 16 p.factor.urgent && within 1 16 p.factor.hazard &&
    within 1 16 p.factor.emergency && within 30 3600 p.freshness && within 2 60 p.dedupe &&
    within 5 300 p.silence && within 2 16 p.pollPeriod && within 16 120 p.airtimeLimit &&
    within 1 4 p.stayLimit && within 2 8 p.missLimit && p.pattern.routine.inRange &&
    p.pattern.urgent.inRange && p.pattern.hazard.inRange && p.pattern.emergency.inRange &&
    decide (listedRate p.rate = p.rate)

/-- Every stored value is within its range and consistent (R180): no pager in two crews, no two call
points with one key, and, by the model's choice (entry 34), no undefined record with other than the undefined values. -/
def Image.consistent (i : Image) : Bool :=
  i.params.inRange && i.crews.toList.all StoredCrew.inRange &&
    distinct (i.crews.toList.flatMap StoredCrew.members) && i.pools.toList.all poolInRange &&
    i.ladders.toList.all Ladder.inRange &&
    (List.zipWith StoredStation.inRange (List.range' 1 12) i.stations.toList).all id &&
    i.points.all StoredPoint.inRange && decide (i.points.length ≤ Config.maxPoints) &&
    decide ((i.points.map (fun p => (p.station, p.input))).Nodup)

/-! ### The start-up load (R180, R181) -/

/-- A crew as the image gives it, its accepted list empty (R42). -/
def StoredCrew.loaded (c : StoredCrew) : Crew := ⟨c.defined, c.name, c.duty, c.members, c.home, []⟩

/-- A pool as the image gives it, its pointer at the last position (R35). -/
def loadedPool (p : List Nat) : Pool := ⟨p, p.length⟩

/-- The directory entries of numbered crews: one for each member pager of each defined crew, with no
location (R42). -/
def loadedDirectory (crews : List Crew) : List PagerEntry :=
  ((List.range' 1 crews.length).zip crews).foldl (fun d x =>
    if x.2.defined then x.2.members.foldl (fun d p => insertEntry ⟨p, x.1, none⟩ d) d else d) []

/-- A station as the image gives it, at the end of the load at clock value `now` (R152). -/
def StoredStation.loaded (now : Tick) (x : StoredStation) : Station :=
  if x.defined then
    { defined := true
      group := x.group
      setting := x.setting
      service := x.setting
      misses := 0
      due := if x.setting = .inService then some now else none
      pollWaits := decide (x.setting = .inService)
      mark := 0#8
      resync := true
      neighbours := x.neighbours }
  else .undefined

/-- A call point as the image gives it, IDLE (R24). -/
def StoredPoint.loaded (p : StoredPoint) : CallPoint :=
  ⟨p.station, p.input, p.ladder, p.cls, p.text, .idle⟩

/-- A beacon driven at its idle level (R161). -/
def restingBeacon (v : Level) : Beacon := ⟨v, [], none, none, v.out⟩

/-- The default tables as an image (R181). -/
def Image.defaults : Image where
  params := Params.default
  crews := Vector.replicate 48 Crew.undefined.stored
  pools := Vector.replicate 16 []
  ladders := Vector.replicate 16 Ladder.default
  stations := Vector.replicate 12 Station.undefined.stored
  points := []
  idle := Vector.replicate 8 .low

/-- The result of the load and the tables it installs (R180, R181). -/
def Eeprom.load (found : EepromRead) : Eeprom → LoadResult × Image
  | .erased => match found with
    | .noAnswer => (.badCheck, Image.defaults)
    | .held | .checkDisagrees => (.blank, Image.defaults)
  | .invalid => (.badCheck, Image.defaults)
  | .valid img => match found with
    | .held => if img.consistent then (.ok, img) else (.badCheck, Image.defaults)
    | .checkDisagrees | .noAnswer => (.badCheck, Image.defaults)

/-- The rate in use is set anew, to another rate or not: a frame being received is completed at the new rate (R180). -/
def Receiver.atRate (other : Bool) : Receiver → Receiver
  | .searching => .searching
  | .receiving cs changed => .receiving cs (changed || other)

/-- The tables are installed in every block at once (R180). -/
def State.install (s : State) (i : Image) : State :=
  let crews := i.crews.map StoredCrew.loaded
  { s with
    book := { s.book with points := i.points.map StoredPoint.loaded }
    registry := ⟨crews, i.pools.map loadedPool, loadedDirectory crews.toList⟩
    ladders := i.ladders
    line := { s.line with stations := i.stations.map (StoredStation.loaded s.clock) }
    beacons := i.idle.map restingBeacon
    link := { s.link with
      rx := s.link.rx.atRate (decide (i.params.rate ≠ s.link.rateInUse))
      rateInUse := i.params.rate }
    store := { s.store with params := i.params } }

/-- The link enters ONLINE: the silence timer is armed and the part record is posted (R173). -/
def State.enterOnline (s : State) : State :=
  ((s.setLink { s.link with state := .online }).armSilence).post .part

/-- START_UP_LOAD_END: the load ends with its result (R180). It can end only while the link is STARTING
and the controller is not held in reset. -/
def execStartUpLoadEnd (found : EepromRead) (s : State) : Host.Outcome State Fault Refusal :=
  if s.link.state = .starting ∧ ¬ s.store.rstnLow then
    let r := s.store.eeprom.load found
    let t := s.install r.2
    .next (t.setStore { t.store with loadResult := some r.1 }).enterOnline.sendReady
  else .next s

/-! ### The end of a STORE (R185, R186) -/

/-- The store returns to IDLE with a result, and the part record is posted. -/
def State.endStore (s : State) (r : StoreResult) (e : Eeprom) : State :=
  (s.setStore { s.store with state := .idle, lastResult := r, copy := none, eeprom := e }).post .part

/-- STORE_COMPLETE: the last write completes, and the image is valid and holds the copy (R185). -/
def execStoreComplete (s : State) : Host.Outcome State Fault Refusal :=
  match s.store.state, s.store.copy with
  | .saving, some img => .next (s.endStore .ok (.valid img)).sendReady
  | _, _ => .next s

/-- STORE_FAILED: a write fails, and the image holds an invalid marker (R186). -/
def execStoreFailed (s : State) : Host.Outcome State Fault Refusal :=
  match s.store.state with
  | .saving => .next (s.endStore .failed .invalid).sendReady
  | .idle => .next s

end Sys2Proof.Machine
end

