-- ==== Sys2Proof/Machine/Meanings.lean ====
section
/-! DEFINITION. Every meaning, gathered for the dispatch: chapters 1 to 10 in the order of the imports. -/
end

