-- ==== Sys2Proof/Machine/Dispatch.lean ====
section
/-!
DEFINITION. One arm for each command: one direct call of its meaning.
-/

namespace Sys2Proof.Machine

/-- The effect of a command on everything but the queue of waiting commands. -/
def exec (i : Instr) (s : State) : Host.Outcome State Fault Refusal :=
  match i with
  | .powerOn => Sys2Proof.Machine.execPowerOn s
  | .rstnLow => Sys2Proof.Machine.execRstnLow s
  | .rstnHigh => Sys2Proof.Machine.execRstnHigh s
  | .startUpLoadEnd found => Sys2Proof.Machine.execStartUpLoadEnd found s
  | .siteClockTick => Sys2Proof.Machine.execSiteClockTick s
  | .repeatExpiry call => Sys2Proof.Machine.execRepeatExpiry call s
  | .stepDeadlineExpiry call => Sys2Proof.Machine.execStepDeadlineExpiry call s
  | .arrivalExpiry call => Sys2Proof.Machine.execArrivalExpiry call s
  | .dedupeEntryExpiry => Sys2Proof.Machine.execDedupeEntryExpiry s
  | .locationExpiry => Sys2Proof.Machine.execLocationExpiry s
  | .airtimeDeadlineExpiry station => Sys2Proof.Machine.execAirtimeDeadlineExpiry station s
  | .pollDue station => Sys2Proof.Machine.execPollDue station s
  | .beaconPeriodEnd beacon => Sys2Proof.Machine.execBeaconPeriodEnd beacon s
  | .silenceTimerExpiry => Sys2Proof.Machine.execSilenceTimerExpiry s
  | .raise tag payload => Sys2Proof.Machine.execRaise tag payload s
  | .clear tag payload => Sys2Proof.Machine.execClear tag payload s
  | .cancel tag payload => Sys2Proof.Machine.execCancel tag payload s
  | .queryCall tag payload => Sys2Proof.Machine.execQueryCall tag payload s
  | .listCalls tag payload => Sys2Proof.Machine.execListCalls tag payload s
  | .setCallpointDefine tag payload => Sys2Proof.Machine.execSetCallpointDefine tag payload s
  | .setCallpointRemove tag payload => Sys2Proof.Machine.execSetCallpointRemove tag payload s
  | .setCrew tag payload => Sys2Proof.Machine.execSetCrew tag payload s
  | .setPool tag payload => Sys2Proof.Machine.execSetPool tag payload s
  | .queryCrew tag payload => Sys2Proof.Machine.execQueryCrew tag payload s
  | .queryPool tag payload => Sys2Proof.Machine.execQueryPool tag payload s
  | .queryPager tag payload => Sys2Proof.Machine.execQueryPager tag payload s
  | .setLadder tag payload => Sys2Proof.Machine.execSetLadder tag payload s
  | .queryLadder tag payload => Sys2Proof.Machine.execQueryLadder tag payload s
  | .advance tag payload => Sys2Proof.Machine.execAdvance tag payload s
  | .direct tag payload => Sys2Proof.Machine.execDirect tag payload s
  | .listAcks tag payload => Sys2Proof.Machine.execListAcks tag payload s
  | .queryQueue tag payload => Sys2Proof.Machine.execQueryQueue tag payload s
  | .setStationDefine tag payload => Sys2Proof.Machine.execSetStationDefine tag payload s
  | .setStationRemove tag payload => Sys2Proof.Machine.execSetStationRemove tag payload s
  | .queryStation tag payload => Sys2Proof.Machine.execQueryStation tag payload s
  | .beaconHold tag payload => Sys2Proof.Machine.execBeaconHold tag payload s
  | .beaconRelease tag payload => Sys2Proof.Machine.execBeaconRelease tag payload s
  | .queryBeacons tag payload => Sys2Proof.Machine.execQueryBeacons tag payload s
  | .setBeacon tag payload => Sys2Proof.Machine.execSetBeacon tag payload s
  | .setParams tag payload => Sys2Proof.Machine.execSetParams tag payload s
  | .store tag payload => Sys2Proof.Machine.execStore tag payload s
  | .queryPart tag payload => Sys2Proof.Machine.execQueryPart tag payload s
  | .reset tag payload => Sys2Proof.Machine.execReset tag payload s
  | .unknownRequest kind tag payload => Sys2Proof.Machine.execUnknownRequest kind tag payload s
  | .frameBadCheck kind tag payload check => Sys2Proof.Machine.execFrameBadCheck kind tag payload check s
  | .wrongLength length => Sys2Proof.Machine.execWrongLength length s
  | .frameGap chars => Sys2Proof.Machine.execFrameGap chars s
  | .lineBreak chars => Sys2Proof.Machine.execLineBreak chars s
  | .characterError chars => Sys2Proof.Machine.execCharacterError chars s
  | .hctsAsserted => Sys2Proof.Machine.execHctsAsserted s
  | .frameSent hcts => Sys2Proof.Machine.execFrameSent hcts s
  | .storeComplete => Sys2Proof.Machine.execStoreComplete s
  | .storeFailed => Sys2Proof.Machine.execStoreFailed s
  | .pollExchangeBegin => Sys2Proof.Machine.execPollExchangeBegin s
  | .burstExchangeBegin => Sys2Proof.Machine.execBurstExchangeBegin s
  | .replyWindowExpiry => Sys2Proof.Machine.execReplyWindowExpiry s
  | .replyGapAbandon => Sys2Proof.Machine.execReplyGapAbandon s
  | .malformedReplyStart chars => Sys2Proof.Machine.execMalformedReplyStart chars s
  | .pollReply chars => Sys2Proof.Machine.execPollReply chars s
  | .burstReply chars => Sys2Proof.Machine.execBurstReply chars s
  | .beaconOnTimeEnd beacon => Sys2Proof.Machine.execBeaconOnTimeEnd beacon s

end Sys2Proof.Machine
end

