-- ==== Sys2Proof/Safety.lean ====
section
/-!
DEFINITION. What counts as a sound state of the block, and the words the statements about commands use:
when a request is taken, what hearing the plant computer does, and how a reply joins the queue.
-/

namespace Sys2Proof.Machine

/-! ### The taking of a request -/

/-- The host link takes the next request frame (R163, R166, R172, R176, R179): the receiver is searching,
the controller is not held in reset, the start-up load has ended, the reply queue has room and no reset is
pending. -/
structure State.TakesRequests (s : State) : Prop where
  searching : s.link.rx = .searching
  running : s.store.rstnLow = false
  started : s.link.state ≠ .starting
  room : s.link.replies.length < Config.maxReplies
  noReset : s.link.resetPending = false

/-- The state once a valid frame has shown that the plant computer is there (R166 step 2, R174, R175): the
link is ONLINE, the silence timer runs anew, and a link that was LOCAL has posted the part record. -/
def State.heard (s : State) : State :=
  { s with link := { s.link with
      state := .online
      silence := some (s.clock + BitVec.ofNat 24 (s.store.params.silence * 8))
      notices :=
        if s.link.state = .local ∧ .part ∉ s.link.notices then s.link.notices ++ [.part]
        else s.link.notices } }

/-- The state once a reply has joined the end of the reply queue, no segment of it sent yet (R167), and a ready frame
has started where the path is free and HCTS asserted (R169). -/
def State.replying (s : State) (kind tag : Byte) (r : Result) (contents : List Byte) : State :=
  State.sendReady
    { s with link := { s.link with replies := s.link.replies ++ [⟨kind, tag, r, contents, 1⟩] } }

/-- The state with a record on its notice list: at the end, unless it stands there already (R170). -/
def State.withNotice (s : State) (k : NoticeKey) : State :=
  { s with link := { s.link with
      notices := if k ∈ s.link.notices then s.link.notices else s.link.notices ++ [k] } }

/-- The frame a request command brings (R189); none for the other commands. -/
def Instr.frame? : Instr → Option RxFrame
  | .raise t p => some ⟨0x01#8, t, p⟩
  | .clear t p => some ⟨0x02#8, t, p⟩
  | .cancel t p => some ⟨0x03#8, t, p⟩
  | .queryCall t p => some ⟨0x04#8, t, p⟩
  | .listCalls t p => some ⟨0x05#8, t, p⟩
  | .setCallpointDefine t p => some ⟨0x06#8, t, p⟩
  | .setCallpointRemove t p => some ⟨0x06#8, t, p⟩
  | .setCrew t p => some ⟨0x07#8, t, p⟩
  | .setPool t p => some ⟨0x08#8, t, p⟩
  | .queryCrew t p => some ⟨0x09#8, t, p⟩
  | .queryPool t p => some ⟨0x0A#8, t, p⟩
  | .queryPager t p => some ⟨0x0B#8, t, p⟩
  | .setLadder t p => some ⟨0x0C#8, t, p⟩
  | .queryLadder t p => some ⟨0x0D#8, t, p⟩
  | .advance t p => some ⟨0x0E#8, t, p⟩
  | .direct t p => some ⟨0x0F#8, t, p⟩
  | .listAcks t p => some ⟨0x10#8, t, p⟩
  | .queryQueue t p => some ⟨0x11#8, t, p⟩
  | .setStationDefine t p => some ⟨0x12#8, t, p⟩
  | .setStationRemove t p => some ⟨0x12#8, t, p⟩
  | .queryStation t p => some ⟨0x13#8, t, p⟩
  | .beaconHold t p => some ⟨0x14#8, t, p⟩
  | .beaconRelease t p => some ⟨0x14#8, t, p⟩
  | .queryBeacons t p => some ⟨0x15#8, t, p⟩
  | .setBeacon t p => some ⟨0x16#8, t, p⟩
  | .setParams t p => some ⟨0x17#8, t, p⟩
  | .store t p => some ⟨0x18#8, t, p⟩
  | .queryPart t p => some ⟨0x19#8, t, p⟩
  | .reset t p => some ⟨0x1A#8, t, p⟩
  | .unknownRequest k t p => some ⟨k, t, p⟩
  | .powerOn | .rstnLow | .rstnHigh | .startUpLoadEnd _ | .siteClockTick | .repeatExpiry _
  | .stepDeadlineExpiry _ | .arrivalExpiry _ | .dedupeEntryExpiry | .locationExpiry
  | .airtimeDeadlineExpiry _ | .pollDue _ | .beaconPeriodEnd _ | .silenceTimerExpiry
  | .frameBadCheck .. | .wrongLength _ | .frameGap _ | .lineBreak _ | .characterError _
  | .hctsAsserted | .frameSent _ | .storeComplete | .storeFailed | .pollExchangeBegin
  | .burstExchangeBegin | .replyWindowExpiry | .replyGapAbandon | .malformedReplyStart _
  | .pollReply _ | .burstReply _ | .beaconOnTimeEnd _ => none

/-- The length R190 asks of the payload of a request of kind `kind` (1 to 0x1A), each count read from its own
character; none where the payload is too short to hold a count, or the kind names no request. -/
def lengthAsked (kind : Byte) (p : List Byte) : Option Nat :=
  match kind.toNat with
  | 0x01 => p[4]?.map (fun n => 5 + n.toNat)
  | 0x06 => p[5]?.map (fun n => 6 + n.toNat)
  | 0x07 => p[5]?.bind (fun n => p[6 + n.toNat]?.map (fun m => 7 + n.toNat + 2 * m.toNat))
  | 0x08 => p[1]?.map (fun k => 2 + k.toNat)
  | 0x0C => p[5]?.map (fun k => 6 + 6 * k.toNat)
  | 0x12 => p[4]?.map (fun k => 5 + k.toNat)
  | 0x02 | 0x03 | 0x04 | 0x0B | 0x0E | 0x16 => some 2
  | 0x05 | 0x10 | 0x15 | 0x18 | 0x19 | 0x1A => some 0
  | 0x09 | 0x0A | 0x0D | 0x11 | 0x13 => some 1
  | 0x0F => some 6
  | 0x14 => some 3
  | 0x17 => some 27
  | _ => none

/-- A payload whose length fits its kind (R190). -/
def lengthFits (kind : Byte) (p : List Byte) : Prop := lengthAsked kind p = some p.length

/-! ### The fields of a call that never change -/

/-- The fields of 1.1 that the table marks "(fixed)". -/
structure Call.SameIdentity (a b : Call) : Prop where
  number : a.number = b.number
  source : a.source = b.source
  origin : a.origin = b.origin
  cls : a.cls = b.cls
  ladder : a.ladder = b.ladder
  text : a.text = b.text
  preferred : a.preferred = b.preferred
  raiseTick : a.raiseTick = b.raiseTick

/-- A call record without its force-wide flag, the one field that a lost page of the call may set in any event
(R106). -/
def Call.core (c : Call) : Call := { c with forceWide := false }

/-- The record of an open call once it is closed for reason `r` at clock value `now` (R20). -/
def Call.closedFor (c : Call) (r : CloseReason) (now : Tick) : Call :=
  { c with
    accepting := none
    stepDeadline := none
    nextRepeat := none
    arrivalDeadline := none
    heldBeacon := none
    closeTick := some now
    state := .closed
    reason := some r }

/-- Record `c'` is record `c` with step `i` of its ladder started at clock value `now`, a step with this base
window, these repeats and this class factor (R51, R55 to R57): all but the targets, the step pool, the flags of
the step's kind, the paged set and the beacon, of which the step's kind decides. -/
structure Call.StepBegun (now : Tick) (factor base repeats i : Nat) (c c' : Call) : Prop where
  same : c'.SameIdentity c
  state : c'.state = .paging
  reason : c'.reason = c.reason
  index : c'.stepIndex = i
  start : c'.stepStart = now
  window : c'.window = max 40 (min 14400 (base * factor))
  interval : c'.interval = c'.window / (c'.repeats + 1)
  repeats : c'.repeats =
    if 24 ≤ c'.window / (repeats + 1) then repeats else min repeats (c'.window / 24 - 1)
  deadline : c'.stepDeadline = some (now + BitVec.ofNat 24 c'.window)
  repeatTick : c'.nextRepeat =
    if 1 ≤ c'.repeats then some (now + BitVec.ofNat 24 c'.interval) else none
  attempts : c'.attempts = 1
  declined : c'.declined = []
  paged : c'.paged = c'.targets.foldl addToSet c.paged
  accepting : c'.accepting = c.accepting
  arrival : c'.arrivalDeadline = c.arrivalDeadline
  ticks : c'.acceptTick = c.acceptTick ∧ c'.onSceneTick = c.onSceneTick ∧ c'.closeTick = c.closeTick
  presses : c'.presses = c.presses

/-- A step of this kind is empty when it starts in state `s` (R52). -/
def State.emptyStep (s : State) : StepKind → Prop
  | .crew x => ¬ ((s.crew x).defined = true ∧ (s.crew x).duty = .onDuty)
  | .poolOne p => (s.chooseOne p [] []).1 = none
  | .poolAll p => s.chooseAll p [] [] = []
  | .refer => s.link.state ≠ .online
  | .noTarget => False

/-- A step of this kind that is not empty gave record `c'` its targets, step pool and flags as it started in state
`s`, and left the registry as state `t` holds it: only a POOL_ONE step changes it, in its pool's pointer (R52). -/
def State.Resolves (s t : State) (k : StepKind) (c' : Call) : Prop :=
  c'.directed = false ∧
    match k with
    | .crew x => c'.targets = [x] ∧ c'.stepPool = none ∧ c'.referred = false ∧ t.registry = s.registry
    | .poolOne p => ∃ x v, s.chooseOne p [] [] = (some x, v) ∧ c'.targets = [x] ∧ c'.stepPool = some p ∧
        c'.referred = false ∧ t.registry = v.registry
    | .poolAll p => c'.targets = s.chooseAll p [] [] ∧ c'.targets ≠ [] ∧ c'.stepPool = none ∧
        c'.referred = false ∧ t.registry = s.registry
    | .refer => s.link.state = .online ∧ c'.targets = [] ∧ c'.stepPool = none ∧ c'.referred = true ∧
        t.registry = s.registry
    | .noTarget => c'.targets = [] ∧ c'.stepPool = none ∧ c'.referred = false ∧ t.registry = s.registry

/-- The steps of ladder `lad` numbered from `i` up to but not including `j` are empty in state `s` (R54). -/
def State.emptySteps (s : State) (lad : Ladder) (i j : Nat) : Prop :=
  ∀ k x, i ≤ k → k < j → lad.steps[k - 1]? = some x → s.emptyStep x.kind

/-- In going from `s` to `t` record `c` became `c'` in some step of its ladder that is not empty, every step passed
over on the way being empty, with no restart or after the one restart that leads to it (R51 to R55, R63, R64). -/
def State.InStep (s t : State) (c c' : Call) : Prop :=
  ∃ i, ∃ x : LadderStep, 1 ≤ i ∧ (s.ladder c.ladder).steps[i - 1]? = some x ∧ ¬ s.emptyStep x.kind ∧
    Call.StepBegun s.clock (s.factor c.cls) x.window x.repeats i c c' ∧ s.Resolves t x.kind c' ∧
    c'.heldBeacon = (match x.beacon with | none => c.heldBeacon | some z => some z) ∧
    (c'.restarts = c.restarts ∧ c.stepIndex < i ∧ s.emptySteps (s.ladder c.ladder) (c.stepIndex + 1) i ∨
      c'.restarts = c.restarts + 1 ∧ c'.restarts ≤ (s.ladder c.ladder).restartLimit ∧
        s.emptySteps (s.ladder c.ladder) (c.stepIndex + 1) ((s.ladder c.ladder).steps.length + 1) ∧
        s.emptySteps (s.ladder c.ladder) 1 i)

/-- Record `c` exhausted out of the step it is in (R65): everything that R65 does not name as that step left it. -/
def Call.exhaustedBy (lad : Ladder) (c : Call) : Call :=
  { c with
    state := .exhausted
    stepDeadline := none
    nextRepeat := none
    directed := false
    referred := false
    heldBeacon := match lad.exhaustBeacon with | none => c.heldBeacon | some z => some z }

/-- Record `c'` is record `c` exhausted (R65): at once, out of the last step with every restart used, or through the
empty steps that were left, the last of which was the step it left, with no target, no declined crew and no step pool
(R51, R54). The step start, window, interval, effective repeats and attempts after empty steps are open here, their
values being the model's choice (entry 31). -/
structure Call.GivenUp (lad : Ladder) (c c' : Call) : Prop where
  atOnce : lad.steps.length ≤ c.stepIndex → lad.restartLimit ≤ c.restarts → c' = c.exhaustedBy lad
  throughEmptySteps : c.stepIndex < lad.steps.length ∨ c.restarts < lad.restartLimit →
    c' = { c.exhaustedBy lad with
      stepIndex := lad.steps.length
      restarts := max c.restarts lad.restartLimit
      targets := []
      declined := []
      stepPool := none
      forceWide := false
      stepStart := c'.stepStart
      window := c'.window
      interval := c'.interval
      repeats := c'.repeats
      attempts := c'.attempts }

/-! ### Pages, and the steps they belong to -/

/-- The PAGE items of call `c` for every member pager of these crews, crews in order and members in order (R55). -/
def State.pagesFor (s : State) (c : Call) (crews : List Nat) : List Item :=
  crews.flatMap (fun k => (s.crew k).members.map (fun pager => ⟨pager, c.number, .page, c.cls, c.text, 0⟩))

/-- In going from `s` to `t` these items were handed one by one to the locator and the scheduler, the force-wide flag
of call `n` being `wide` when the first was, and the queues, the air and the line changed by nothing else (R55, R104).
-/
def State.HandsOver (s t : State) (n : Nat) (wide : Bool) (items : List Item) : Prop :=
  ∃ u : State, u.sched = s.sched ∧ u.line = s.line ∧ u.registry.directory = s.registry.directory ∧
    u.clock = s.clock ∧ u.store = s.store ∧ (u.findCall n).map Call.forceWide = some wide ∧
    t.sched = (forEach items State.produce u).sched ∧ t.line = (forEach items State.produce u).line

/-- In going from `s` to `t` record `c` became `c'`: a step that is not empty, its pages handed over, or exhaustion,
which pages no one and comes only where every step left, and, with a restart left, every step of the ladder, is empty
(R54, R55, R63 to R65). -/
def State.AdvancesTo (s t : State) (c c' : Call) : Prop :=
  s.InStep t c c' ∧ s.HandsOver t c.number false (s.pagesFor c c'.targets) ∨
    Call.GivenUp (s.ladder c.ladder) c c' ∧
      s.emptySteps (s.ladder c.ladder) (c.stepIndex + 1) ((s.ladder c.ladder).steps.length + 1) ∧
      (c.restarts < (s.ladder c.ladder).restartLimit →
        s.emptySteps (s.ladder c.ladder) 1 ((s.ladder c.ladder).steps.length + 1)) ∧
      t.registry = s.registry ∧ t.sched = s.sched ∧ t.line = s.line

/-- The waiting items of a station once the items of its burst have returned to the head of its queue (R119). -/
def State.returned (s : State) (st : Nat) (b : Burst) : List Item :=
  let kept := b.items.filter (fun i => !((decide (i.kind = .page) || decide (i.kind = .repage)) &&
    (match s.findCall i.call with | none => true | some c => decide (c.state ≠ .paging))))
  kept.map (fun i => match (s.queue st).waiting.find? (fun w => w.same i) with
    | none => i
    | some w => { i with text := w.text, attempt := w.attempt }) ++
  (s.queue st).waiting.filter (fun w => !kept.any (fun i => i.same w))

/-! ### Lost pages -/

/-- A PAGE or REPAGE of call `c` is among these items (R106). -/
def lostPageOf (lost : List Item) (c : Call) : Bool :=
  lost.any (fun i => decide (i.kind = .page ∨ i.kind = .repage) && decide (i.call = c.number))

/-- In going from `s` to `t` the force-wide flag of exactly the calls that `hit` names was set, no call record changed
otherwise, and each of them whose flag was clear was posted (R106). -/
structure State.Widens (s t : State) (hit : Call → Bool) : Prop where
  calls : ∀ m, t.findCall m = (s.findCall m).map (fun c => if hit c then { c with forceWide := true } else c)
  posted : ∀ m c, s.findCall m = some c → hit c = true → c.forceWide = false → .call m ∈ t.link.notices

/-- The flag is set as in `State.Widens`, and no other record was posted. -/
structure State.WidensOnly (s t : State) (hit : Call → Bool) : Prop extends s.Widens t hit where
  only : ∀ k ∈ t.link.notices, k ∈ s.link.notices ∨
    ∃ m c, k = .call m ∧ s.findCall m = some c ∧ hit c = true ∧ c.forceWide = false

/-- The items of a station: those that wait and those in flight (R109). -/
def State.heldAt (s : State) (st : Nat) : List Item :=
  (s.queue st).waiting ++ (match (s.queue st).flight with | none => [] | some b => b.items)

/-- The items of a station once those of its burst have returned (R118, R119, R124). -/
def State.heldOnReturn (s : State) (st : Nat) : List Item :=
  match (s.queue st).flight with
  | none => (s.queue st).waiting
  | some b => s.returned st b

/-- In going from `s` to `t` a station lost these items as it left service (R123): the force-wide flag of each open call
with a PAGE or REPAGE among them was set. -/
def State.Flushes (s t : State) (lost : List Item) : Prop :=
  s.Widens t (fun c => lostPageOf lost c && decide (c.state ≠ .closed))

/-! ### Beacons -/

/-- Class `w` is the highest of a manual hold and the classes of these holders; none where there is neither (R155). -/
def State.TopClass (s : State) (hold : Option Cls) (holders : List Nat) (w : Option Cls) : Prop :=
  let among := fun (k : Cls) => hold = some k ∨ ∃ n ∈ holders, ∃ c, s.findCall n = some c ∧ c.cls = k
  match w with
  | none => ∀ k, ¬ among k
  | some k => among k ∧ ∀ j, among j → j.rank ≤ k.rank

/-- Beacon `b` once its holders and hold call for class `w` (R157): as it is where it drives with that class, or rests
and none is called for; resting at its idle level; or at the start of a period of the pattern of `w`, at its active
level. -/
def Beacon.settled (b : Beacon) (w : Option Cls) (pattern : PerClass Pattern) (now : Tick) : Beacon :=
  match w with
  | none => if b.driving = none then b else
      { b with driving := none, output := if b.idle = .low then .low else .high }
  | some k => if b.driving.map Driving.cls = some k then b else
      { b with
        driving := some ⟨k, (pattern.get k).period, (pattern.get k).onTime, now⟩
        output := if b.idle = .low then .high else .low }

/-! ### Grants and the values of a station -/

/-- No free grant of group `g` waits to be given: it is held, or no station qualifies for it (R115, R116). -/
def State.GrantSettled (s : State) (g : Nat) : Prop :=
  (s.group g).holder = none → ∀ st, ¬ ((s.station st).defined = true ∧ (s.station st).group = g ∧
    ((s.station st).service = .inService ∨ (s.station st).service = .suspect) ∧ (s.queue st).waiting ≠ [] ∧
    (s.queue st).waitIdle = false)

/-- In going from `s` to `w` defined station `st` took the values of a DEFINE, with what a change of its channel group
does before any arbiter acts: the grant of the old group given up, a burst in flight taken back (R100, R124, R149). -/
structure State.TakesValues (s w : State) (st g : Nat) (v : Service) (ns : List Nat) : Prop where
  station : w.station st = { s.station st with group := g, setting := v, neighbours := ns }
  stations : ∀ k, k ≠ st → w.station k = s.station k
  queues : ∀ k, k ≠ st → w.queue k = s.queue k
  released : (s.station st).group ≠ g → (s.group (s.station st).group).holder = some st →
    (∀ k, w.group k = if k = (s.station st).group then { s.group k with holder := none, deadline := none }
      else s.group k) ∧
    (w.queue st).phase = .none ∧ w.line.burstWaits = s.line.burstWaits.filter (fun k => decide (k ≠ st))
  kept : (s.station st).group = g ∨ (s.group (s.station st).group).holder ≠ some st →
    (∀ k, w.group k = s.group k) ∧ (w.queue st).phase = (s.queue st).phase ∧
    w.line.burstWaits = s.line.burstWaits
  returned : (s.station st).group ≠ g → (s.queue st).phase = .inFlight →
    (w.queue st).flight = none ∧ (w.queue st).waitIdle = (s.queue st).waitIdle ∧
    (∀ b, (s.queue st).flight = some b → (w.queue st).waiting = s.returned st b) ∧
    w.line.exchange = s.line.exchange.map (fun x =>
      if x.station = st ∧ x.kind = .burst then { x with detached := true } else x)
  waiting : (s.station st).group = g ∨ (s.queue st).phase ≠ .inFlight →
    w.queue st = { s.queue st with phase := (w.queue st).phase } ∧ w.line.exchange = s.line.exchange
  rest : w = { s with
    sched := { s.sched with queues := w.sched.queues, groups := w.sched.groups }
    line := { s.line with
      stations := w.line.stations, burstWaits := w.line.burstWaits, exchange := w.line.exchange } }

/-! ### Raising, evicting and closing -/

/-- The state without call record `m`: its slot and number are free, its notice is off the list, and a frame being sent
of it frees nothing (R6; entry 29 for the frame). -/
def State.without (s : State) (m : Nat) : State :=
  { s with
    book := { s.book with
      calls := s.book.calls.filter (fun c => decide (c.number ≠ m))
      closedOrder := s.book.closedOrder.filter (fun k => decide (k ≠ m)) }
    link := { s.link with
      notices := s.link.notices.filter (fun k => decide (k ≠ .call m))
      sending := s.link.sending.map (fun f => if f.frees = some m then { f with frees := none } else f) } }

/-- In going from `u` to `t` a press at entry `p` raised a call under the next number: its record with the values of the
entry in its first step that is not empty, or exhausted, and posted, and the entry OPEN with it (R8, R14). -/
structure State.RaisesFrom (u t : State) (p : CallPoint) : Prop where
  call : ∃ c', t.findCall u.book.nextNumber = some c' ∧
    u.AdvancesTo t { newCall u.book.nextNumber (.callPoint p.station p.input) p.station p.cls p.ladder p.text none
      u.clock with stepIndex := 0 } c'
  notice : .call u.book.nextNumber ∈ t.link.notices
  book : t.book = { u.book with
    calls := t.book.calls
    counter := u.book.nextNumber
    points := u.book.points.map (fun q => if q.station = p.station ∧ q.input = p.input then
      { q with state := .opened u.book.nextNumber } else q) }
  others : ∀ m, m ≠ u.book.nextNumber → (t.findCall m).map Call.core = (u.findCall m).map Call.core
  tables : t.clock = u.clock ∧ t.ladders = u.ladders ∧ t.acks = u.acks ∧ t.store = u.store ∧
    t.registry.crews = u.registry.crews ∧ t.registry.directory = u.registry.directory
  link : t.link = { u.link with notices := t.link.notices }

/-- The CLOSE_NOTE items of a close for reason `r`: for the member pagers of the accepting crew, unless it is done,
and of each undeclined target other than it (R20). -/
def State.closeNotes (s : State) (r : CloseReason) (c : Call) : List Item :=
  ((if r = .doneByCrew then [] else c.accepting.toList) ++
      c.targets.filter (fun k => !c.declined.contains k && decide (c.accepting ≠ some k))).flatMap
    (fun k => (s.crew k).members.map (fun pager => ⟨pager, c.number, .closeNote, c.cls, r.text, 0⟩))

/-- In going from `s` to `t` call `c` was closed for reason `r` (R20), and its call point settled (R21): the record, its
place in the closing order, its pages withdrawn, its close notes handed over, its accepting crew without it. -/
structure State.Closes (s t : State) (r : CloseReason) (c : Call) : Prop where
  record : ∃ c', t.findCall c.number = some c' ∧ c'.core = (c.closedFor r s.clock).core
  book : t.book = { s.book with
    calls := t.book.calls, closedOrder := s.book.closedOrder ++ [c.number], points := t.book.points }
  notice : .call c.number ∈ t.link.notices
  withdrawn : ∀ st x, x ∈ (t.queue st).waiting → x.call = c.number → x.kind ≠ .page ∧ x.kind ≠ .repage
  notes : (s.withdrawPages c.number).HandsOver t c.number c.forceWide (s.closeNotes r c)
  crew : ∀ a, c.accepting = some a →
    t.crew a = { s.crew a with accepted := (s.crew a).accepted.filter (fun m => decide (m ≠ c.number)) } ∧
      .crew a ∈ t.link.notices
  crews : ∀ k, c.accepting ≠ some k → t.crew k = s.crew k
  point : ∀ st i p, s.findPoint st i = some p → t.findPoint st i =
    if c.source = .callPoint st i ∧ p.state = .opened c.number then some { p with state := .idle } else some p
  others : ∀ m, m ≠ c.number → (t.findCall m).map Call.core = (s.findCall m).map Call.core
  tables : t.clock = s.clock ∧ t.ladders = s.ladders ∧ t.acks = s.acks ∧ t.store = s.store ∧
    t.registry.directory = s.registry.directory ∧ t.registry.pools = s.registry.pools
  link : t.link = { s.link with notices := t.link.notices }

/-- In going from `s` to `t` call `c` was closed for reason `r`, and then the oldest waiting press, if one waits, was
served in the slot of the CLOSED record that closed earliest, which is evicted (R17, R20, R21). -/
def State.ClosesAndServes (s t : State) (r : CloseReason) (c : Call) : Prop :=
  ∃ u : State, s.Closes u r c ∧ (s.book.pendingPresses = [] → t = u) ∧
    ∀ key rest, s.book.pendingPresses = key :: rest → ∃ m ms v, u.book.closedOrder = m :: ms ∧
      v = { u.without m with book := { (u.without m).book with pendingPresses := rest } } ∧
      (v.findPoint key.1 key.2 = none → t = v) ∧ ∀ p, v.findPoint key.1 key.2 = some p → v.RaisesFrom t p

/-! ### What escalation leaves alone -/

/-- What the escalation engine, the locator and the airtime scheduler leave alone while they act for the calls
that `own` names: they change those calls, the force-wide flags of others, pool pointers, beacon drives, page
queues and grants with the waiting BURST exchanges, and they add to the notice list. -/
structure EngineFrame (own : Nat → Prop) (s t : State) : Prop where
  pending : t.pending = s.pending
  clock : t.clock = s.clock
  ladders : t.ladders = s.ladders
  acks : t.acks = s.acks
  store : t.store = s.store
  crews : t.registry.crews = s.registry.crews
  directory : t.registry.directory = s.registry.directory
  poolLists : ∀ k, (t.pool k).crews = (s.pool k).crews
  beacons : ∀ z, (t.beacon z).idle = (s.beacon z).idle ∧ (t.beacon z).hold = (s.beacon z).hold
  link : t.link = { s.link with notices := t.link.notices }
  notices : ∃ l, t.link.notices = s.link.notices ++ l
  line : t.line = { s.line with burstWaits := t.line.burstWaits }
  book : t.book = { s.book with calls := t.book.calls }
  numbers : t.book.calls.map Call.number = s.book.calls.map Call.number
  others : ∀ n, ¬ own n → (t.findCall n).map Call.core = (s.findCall n).map Call.core
  same : ∀ n c, s.findCall n = some c → ∃ c', t.findCall n = some c' ∧ c'.SameIdentity c

/-! ### Resets and the start-up load -/

/-- Every block is in the state a reset of this cause leaves (R24, R30, R43, R94, R129, R152, R161, R177, R179,
R180). HCTS counting as deasserted until it is sampled is the model's choice (entry 25). -/
structure State.JustReset (s : State) (cause : Cause) : Prop where
  clock : s.clock = 0#24
  book : s.book.calls = [] ∧ s.book.closedOrder = [] ∧ s.book.counter = 0 ∧ s.book.pendingPresses = []
  accepted : ∀ c, (s.crew c).accepted = []
  acks : s.acks = []
  queues : ∀ st, s.queue st = ⟨[], [], none, .none, false⟩
  groups : ∀ g, s.group g = ⟨none, 0, 0, none⟩
  burstId : s.sched.burstId = 0#8
  line : s.line.exchange = none ∧ s.line.followUps = [] ∧ s.line.burstWaits = []
  sden : ∀ k, s.sden k = false
  beacons : ∀ z, (s.beacon z).output = .released ∧ (s.beacon z).holders = [] ∧ (s.beacon z).hold = none ∧
    (s.beacon z).driving = none
  link : s.link.state = .starting ∧ s.link.rx = .searching ∧ s.link.replies = [] ∧ s.link.notices = [] ∧
    s.link.sending = none ∧ s.link.silence = none ∧ s.link.resetPending = false ∧ s.link.rateInUse = 19200 ∧
    s.link.hcts = false
  store : s.store.state = .idle ∧ s.store.lastResult = .none ∧ s.store.loadResult = none ∧
    s.store.cause = cause ∧ s.store.copy = none
  hrdy : s.hrdy = false

/-- State `t` is state `s` with the tables of `img` installed and the link ONLINE (R24, R42, R72, R152, R161,
R173, R180). -/
structure State.Installed (s t : State) (img : Image) (found : LoadResult) : Prop where
  params : t.store.params = img.params
  rate : t.link.rateInUse = img.params.rate
  result : t.store = { s.store with params := img.params, loadResult := some found }
  crews : ∀ k, 1 ≤ k → k ≤ 48 → ∀ x, img.crews[k - 1]? = some x →
    t.crew k = ⟨x.defined, x.name, x.duty, x.members, x.home, []⟩
  directory : ∀ pager e, t.pagerEntry? pager = some e ↔ e.pager = pager ∧ e.location = none ∧
    1 ≤ e.owner ∧ ∃ x, img.crews[e.owner - 1]? = some x ∧ x.defined = true ∧ pager ∈ x.members
  pools : ∀ k, 1 ≤ k → k ≤ 16 → ∀ l, img.pools[k - 1]? = some l → t.pool k = ⟨l, l.length⟩
  ladders : t.ladders = img.ladders
  stations : ∀ k, 1 ≤ k → k ≤ 12 → ∀ x, img.stations[k - 1]? = some x → x.defined = true →
    t.station k = ⟨true, x.group, x.setting, x.setting, 0,
      if x.setting = .inService then some s.clock else none, decide (x.setting = .inService), 0#8, true,
      x.neighbours⟩
  undefinedStations : ∀ k, 1 ≤ k → k ≤ 12 → ∀ x, img.stations[k - 1]? = some x → x.defined = false →
    t.station k = ⟨false, 1, .inService, .outOfService, 0, none, false, 0#8, false, []⟩
  points : t.book = { s.book with
    points := img.points.map (fun p => ⟨p.station, p.input, p.ladder, p.cls, p.text, .idle⟩) }
  beacons : ∀ z, 1 ≤ z → z ≤ 8 → ∀ v, img.idle[z - 1]? = some v →
    t.beacon z = ⟨v, [], none, none, match v with | .low => .low | .high => .high⟩
  link : t.link = { s.link with
    state := .online
    rx := match s.link.rx with
      | .searching => .searching
      | .receiving cs changed => .receiving cs (changed || decide (img.params.rate ≠ s.link.rateInUse))
    silence := some (s.clock + BitVec.ofNat 24 (img.params.silence * 8))
    rateInUse := img.params.rate
    notices := if .part ∈ s.link.notices then s.link.notices else s.link.notices ++ [.part] }
  rest : t.clock = s.clock ∧ t.pending = s.pending ∧ t.acks = s.acks ∧ t.sched = s.sched ∧
    t.line = { s.line with stations := t.line.stations }

/-! ### Sound states -/

/-- What chapters 1 and 3 say of every call record: an accepting crew exactly when ACCEPTED or ON_SCENE and a
close reason exactly when CLOSED (R2), deadlines only in the states that arm them (1.2), no held beacon once
accepted or closed (R20, R81), and at most 8 distinct step targets that hold the declined set (R55). -/
structure Call.Sound (c : Call) : Prop where
  accepting : c.accepting.isSome ↔ c.state = .accepted ∨ c.state = .onScene
  reason : c.reason.isSome ↔ c.state = .closed
  arrival : c.arrivalDeadline.isSome → c.state = .accepted
  deadline : c.stepDeadline.isSome → c.state = .paging
  nextRepeat : c.nextRepeat.isSome → c.state = .paging
  beacon : c.heldBeacon.isSome → c.state = .paging ∨ c.state = .exhausted
  targetCount : c.targets.length ≤ Config.maxTargets
  targetsDistinct : c.targets.Nodup
  declined : ∀ x ∈ c.declined, x ∈ c.targets

/-- A pool is sound (R35): at most 8 distinct crews, and a rotation pointer at a position 1..n of its list of n crews,
or 0 for an empty one. -/
structure Pool.Sound (p : Pool) : Prop where
  count : p.crews.length ≤ 8
  distinct : p.crews.Nodup
  within : p.pointer ≤ p.crews.length
  placed : p.crews ≠ [] → 1 ≤ p.pointer

/-- The call book and the pools are sound: at most 96 records in ascending number (the model's own order, entry 22),
which are distinct and lie in 1..65535 (R1, R4), the closing order names exactly the CLOSED ones, each once (R5), a
frame being sent frees none but those (R7), every record is sound, every pool is sound (R35), and while
the start-up load lasts the book is empty (R24; the call-point table too, entry 12). -/
structure State.BookSound (s : State) : Prop where
  capacity : s.book.calls.length ≤ Config.maxCalls
  ascending : (s.book.calls.map Call.number).Pairwise (· < ·)
  range : ∀ c ∈ s.book.calls, 1 ≤ c.number ∧ c.number ≤ 65535
  closedOnce : s.book.closedOrder.Nodup
  closed : ∀ n, n ∈ s.book.closedOrder ↔ ∃ c ∈ s.book.calls, c.number = n ∧ c.state = .closed
  frees : ∀ f n, s.link.sending = some f → f.frees = some n → n ∈ s.book.closedOrder
  calls : ∀ c ∈ s.book.calls, c.Sound
  pools : ∀ k, (s.pool k).Sound
  starting : s.link.state = .starting → s.book.calls = [] ∧ s.book.points = []

/-- The call points and the waiting presses are sound: no two entries have one key (R11), an entry is OPEN exactly with
the open call that its press raised (R14, R21) and PENDING exactly when its key is on the pending-press list (R11,
R16), which holds no key twice (R16), and while a press waits the book has neither a free slot nor a CLOSED record
(R5, R17). -/
structure State.PointsSound (s : State) : Prop where
  keys : (s.book.points.map (fun p => (p.station, p.input))).Nodup
  opened : ∀ p ∈ s.book.points, ∀ n, p.state = .opened n →
    ∃ c, s.findCall n = some c ∧ c.state ≠ .closed ∧ c.source = .callPoint p.station p.input
  raised : ∀ n c st i, s.findCall n = some c → c.state ≠ .closed → c.source = .callPoint st i →
    ∃ p ∈ s.book.points, p.station = st ∧ p.input = i ∧ p.state = .opened n
  pending : ∀ st i, (st, i) ∈ s.book.pendingPresses ↔
    ∃ p ∈ s.book.points, p.station = st ∧ p.input = i ∧ p.state = .pending
  once : s.book.pendingPresses.Nodup
  waits : s.book.pendingPresses ≠ [] → s.book.calls.length = Config.maxCalls ∧ s.book.closedOrder = []

/-- The beacon unit is sound (R153 to R155): each holder set holds, once each, exactly the calls whose held
beacon it is, and a beacon drives exactly the highest class among its holders and its manual hold. -/
structure State.BeaconsSound (s : State) : Prop where
  holders : ∀ z, 1 ≤ z → z ≤ 8 → ∀ n,
    n ∈ (s.beacon z).holders ↔ ∃ c, s.findCall n = some c ∧ c.heldBeacon = some z
  once : ∀ z, (s.beacon z).holders.Nodup
  driving : ∀ z, (s.beacon z).driving.map Driving.cls = s.wantedClass z

/-- A page queue is sound (R109): waiting items and items in flight are at most 24, no two waiting items
have the same pager, call and kind, and neither have two items in flight, and the ordered part stands in descending
class. -/
structure StationQueue.Sound (q : StationQueue) : Prop where
  count : q.count ≤ Config.queueCap
  waiting : q.waiting.Pairwise (fun a b => a.same b = false)
  flying : q.flying.Pairwise (fun a b => a.same b = false)
  ordered : q.ordered.Pairwise (fun a b => b.cls.rank ≤ a.cls.rank)

/-- Every page queue is sound (R109). -/
def State.QueuesSound (s : State) : Prop := ∀ st, (s.queue st).Sound

/-- The crew registry is sound: a pager has a directory entry exactly when it is a member of a crew, which
owns the entry (R28), no two entries are for one pager (R29), and no crew has taken more than 3 calls (R30). -/
structure State.RegistrySound (s : State) : Prop where
  members : ∀ pager c, (∃ e, s.pagerEntry? pager = some e ∧ e.owner = c) ↔
    1 ≤ c ∧ c ≤ 48 ∧ pager ∈ (s.crew c).members
  entries : (s.registry.directory.map PagerEntry.pager).Nodup
  accepted : ∀ c, (s.crew c).accepted.length ≤ Config.maxAccepted

/-- The accepted lists are sound (R2, R30): a call stands in the list of a crew, once, exactly when that crew is
its accepting crew. -/
structure State.AcceptedSound (s : State) : Prop where
  once : ∀ c, (s.crew c).accepted.Nodup
  held : ∀ c, 1 ≤ c → c ≤ 48 → ∀ n,
    n ∈ (s.crew c).accepted ↔ ∃ x, s.findCall n = some x ∧ x.accepting = some c

/-- The recent-acknowledgement list is sound (R76): at most 64 entries, no two with the same pager, call and kind. -/
structure State.AcksSound (s : State) : Prop where
  count : s.acks.length ≤ Config.maxAcks
  keys : s.acks.Pairwise (fun a b => ¬ (a.pager = b.pager ∧ a.call = b.call ∧ a.kind = b.kind))

/-- Every stored value is within its range and consistent, so that the image a STORE writes is one the start-up
load takes (R180): the parameter ranges of R182, crews, pools, ladders, stations and call points. -/
def State.TablesSound (s : State) : Prop := s.image.consistent = true

/-- The air is sound (R115, R123): a grant is held by a usable station of its own group, and a station that is
not usable has an empty page queue; while the start-up load lasts no station is defined (entry 12). -/
structure State.AirSound (s : State) : Prop where
  grants : ∀ g st, (s.group g).holder = some st → s.usable st = true ∧ (s.station st).group = g
  empty : ∀ st, s.usable st = false → (s.queue st).waiting = [] ∧ (s.queue st).flight = none
  starting : s.link.state = .starting → ∀ st, s.station st = .undefined

/-- The host link is sound: no record stands twice on the notice list, which names no call that the book does not hold
(R6, R170), the reply queue holds at most 8 replies (R166), and with HCTS asserted and the path free nothing is left
ready outside STARTING (R169). -/
structure State.LinkSound (s : State) : Prop where
  notices : s.link.notices.Nodup
  listed : ∀ n, .call n ∈ s.link.notices → s.findCall n ≠ none
  replies : s.link.replies.length ≤ Config.maxReplies
  eager : s.link.hcts = true → s.link.state ≠ .starting → s.link.sending = none →
    s.link.replies = [] ∧ s.link.notices = []

end Sys2Proof.Machine
end

