-- ==== Sys2Proof/Certificates/Slice0/Obligations.lean ====
section
/-!
DEFINITION. The statements for the provers, from the numbered rules of spec/, in the order of the blocks.
"Entry n" is notes/assumptions/n.md. A request's effect is stated from `State.heard`, the state in which its
frame has already shown that the plant computer is there (R166 step 2).
-/

open Sys2Proof Sys2Proof.Machine

/-! ### The machine, its resets and its store -/

/-- A step carries out the command at the front of the queue with the queue's rest; with none waiting it idles
(the model's choice, entry 2). -/
def Obligations.StepTakesTheFrontCommand : Prop :=
  (∀ (c : Instr) (rest : List Instr) (s : State), s.pending = c :: rest →
    step s = exec c { s with pending := rest }) ∧
  ∀ s : State, s.pending = [] → step s = .next s

/-- No command stops the controller, and none touches the commands that wait behind it. That an event which cannot
occur changes nothing, and is no fault, is the model's choice (entry 1), and the queue of waiting commands is the
model's own field (entry 2). -/
def Obligations.NoCommandStopsTheBlock : Prop :=
  ∀ (i : Instr) (s : State), ∃ t, exec i s = .next t ∧ t.pending = s.pending

/-- The three resets (R179): power-on, RSTN driven low (cause RESET_LINE) and returned high, and the end of the
RESET reply (cause REQUEST, R176). Each leaves every block in its reset state and the start-up load under way;
the EEPROM, the waiting commands and the level of RSTN are not touched. That RSTN_LOW itself leaves every block reset
with cause RESET_LINE, and what POWER_ON does while RSTN is low, are the model's reading (entry 18), and that HCTS
counts as deasserted after each reset, until it is sampled, is the model's choice (entry 25). -/
def Obligations.ResetsResetEveryBlock : Prop :=
  (∀ s : State, ∃ t, exec .powerOn s = .next t ∧ t.JustReset .powerOn ∧ t.pending = s.pending ∧
    t.store.eeprom = s.store.eeprom ∧ t.store.rstnLow = s.store.rstnLow) ∧
  (∀ s : State, s.store.rstnLow = false → ∃ t, exec .rstnLow s = .next t ∧ t.JustReset .resetLine ∧
    t.pending = s.pending ∧ t.store.eeprom = s.store.eeprom ∧ t.store.rstnLow = true) ∧
  (∀ s : State, s.store.rstnLow = true → ∃ t, exec .rstnHigh s = .next t ∧ t.JustReset s.store.cause ∧
    t.pending = s.pending ∧ t.store.eeprom = s.store.eeprom ∧ t.store.rstnLow = false) ∧
  ∀ (s : State) (f : Frame) (h : Bool), s.link.sending = some f → f.resets = true →
    ∃ t, exec (.frameSent h) s = .next t ∧ t.JustReset .request ∧ t.pending = s.pending ∧
      t.store.eeprom = s.store.eeprom ∧ t.store.rstnLow = s.store.rstnLow

/-- The end of the start-up load (R180): a valid, consistent image is installed with result OK; an erased marker gives
BLANK and anything else BAD_CHECK, and the defaults of R181 are installed; a frame being received is completed at the
new rate. The part record that it posts starts at once where HCTS is asserted (R169). That an image whose undefined
crew or station record holds other than the undefined values counts as inconsistent is the model's choice (entry 34).
-/
def Obligations.StartUpLoadInstallsTheTables : Prop :=
  (∀ (s : State) (img : Image), s.link.state = .starting → s.store.rstnLow = false →
    s.store.eeprom = .valid img → img.consistent = true →
    ∃ t, exec (.startUpLoadEnd .held) s = .next t.sendReady ∧ s.Installed t img .ok) ∧
  ∀ (s : State) (found : EepromRead) (r : LoadResult), s.link.state = .starting →
    s.store.rstnLow = false →
    ((s.store.eeprom = .erased ∧ found ≠ .noAnswer ∧ r = .blank) ∨
      (s.store.eeprom = .erased ∧ found = .noAnswer ∧ r = .badCheck) ∨
      (s.store.eeprom = .invalid ∧ r = .badCheck) ∨
      (∃ img, s.store.eeprom = .valid img ∧ (found ≠ .held ∨ img.consistent = false) ∧ r = .badCheck)) →
    ∃ t, exec (.startUpLoadEnd found) s = .next t.sendReady ∧ s.Installed t Image.defaults r

/-- STORE, STORE_COMPLETE and STORE_FAILED (R185, R186): the store state, the last result, the marker of the image
and the posting of the part record. That the image is already invalid once the STORE is taken is the model's reading
(entry 13). RESET (R176): its OK reply joins the queue, a reset is pending, and HRDY falls
(R168). -/
def Obligations.StoreAndResetBeginAndEnd : Prop :=
  ((∀ (s : State) (tag : Byte), s.TakesRequests → s.store.state = .idle →
     exec (.store tag []) s =
       .next ((State.withNotice { s.heard with store := { s.store with
         state := .saving, copy := some s.image, eeprom := .invalid } } .part).replying 0x98#8 tag .ok [])) ∧
   (∀ (s : State) (img : Image), s.store.state = .saving → s.store.copy = some img →
     exec .storeComplete s = .next (State.sendReady (State.withNotice { s with store := { s.store with
       state := .idle, lastResult := .ok, copy := none, eeprom := .valid img } } .part))) ∧
   ∀ s : State, s.store.state = .saving →
     exec .storeFailed s = .next (State.sendReady (State.withNotice { s with store := { s.store with
       state := .idle, lastResult := .failed, copy := none, eeprom := .invalid } } .part))) ∧
  (∀ (s : State) (tag : Byte), s.TakesRequests →
     ∃ t, exec (.reset tag []) s = .next t ∧
       t = ({ s.heard with link := { s.heard.link with resetPending := true } }).replying 0x9A#8 tag .ok [] ∧
       t.hrdy = false)

/-- What a STORE saves comes back after a reset (R178, R180, R185): STORE, its last write, a power-on and the end
of the load leave every stored item as it stood when the STORE was taken, and running state at its reset value. -/
def Obligations.StoredTablesComeBackAfterAReset : Prop :=
  ∀ (s : State) (tag : Byte), s.TakesRequests → s.store.state = .idle → s.TablesSound →
    ∃ s1 s2 s3 s4, exec (.store tag []) s = .next s1 ∧ exec .storeComplete s1 = .next s2 ∧
      exec .powerOn s2 = .next s3 ∧ exec (.startUpLoadEnd .held) s3 = .next s4 ∧
      s4.store.loadResult = some .ok ∧ s4.store.params = s.store.params ∧
      s4.link.rateInUse = s.store.params.rate ∧ s4.ladders = s.ladders ∧
      (∀ c, s4.crew c = { s.crew c with accepted := [] }) ∧
      (∀ p, (s4.pool p).crews = (s.pool p).crews) ∧
      (∀ st, (s4.station st).defined = (s.station st).defined ∧
        (s4.station st).group = (s.station st).group ∧
        (s4.station st).setting = (s.station st).setting ∧
        (s4.station st).neighbours = (s.station st).neighbours) ∧
      s4.book.points = s.book.points.map (fun p => { p with state := .idle }) ∧
      (∀ z, (s4.beacon z).idle = (s.beacon z).idle) ∧ s4.book.calls = [] ∧ s4.acks = []

/-- The site clock (R43): each tick it rises by one, and from 16,777,215 it goes to 0, and
nothing but a tick and a reset moves it. That a tick changes nothing else, the ageing and the expiries of a tick (R76,
R97, R156) being commands of their own, is the model's reading (entry 3); so is that the clock stands while the
controller is held in reset (R179; entry 18). -/
def Obligations.OnlyTicksAndResetsMoveTheClock : Prop :=
  ((∀ s : State, s.store.rstnLow = false →
     ∃ t, exec .siteClockTick s = .next t ∧ t = { s with clock := t.clock } ∧
       t.clock.toNat = if s.clock.toNat = 16777215 then 0 else s.clock.toNat + 1) ∧
   ∀ s : State, s.store.rstnLow = true → exec .siteClockTick s = .next s) ∧
  (∀ (i : Instr) (s t : State), exec i s = .next t →
     t.clock = s.clock ∨ (i = .siteClockTick ∧ t.clock = s.clock + 1#24) ∨
     (t.clock = 0#24 ∧ t.link.state = .starting ∧
       (i = .powerOn ∨ i = .rstnLow ∨ i = .rstnHigh ∨ ∃ h, i = .frameSent h)))

/-! ### The host link -/

/-- The receiver hands on exactly the frames that were sent (R163, R188): however many whole frames arrive, with
characters that are no start character before, between and after them, it takes those frames, in order, and
holds nothing back. It is indifferent to how the characters are grouped (R163, R164): what it has taken and holds
after two runs of characters, the second arriving when the first has been worked through, is what one run gives. A
frame with a wrong check, or with a wrong length, is passed over by its start character alone: whatever follows, the
search goes on with the character after that one, so that a start character among the characters of the discarded
frame begins a frame (R164). Below them a character is a start bit, eight data bits, least significant first, and a
stop bit, 10 bit times in all (R162); a run of characters with any idle time between them is read back from its levels;
HTXD carries a frame's characters without gaps; and a request frame acts as the levels of its characters do. Which level
is a 1 is the family's (entry 35). The check is R188's: the bits of the characters, most significant first, divided by
x^16 + x^12 + x^5 + 1 in a register preset to 0xFFFF, sent high 8 bits first; and the start character is 0x7E. -/
def Obligations.ReceiverHandsOnExactlyTheFramesSent : Prop :=
  (∀ (fs : List (List Byte × RxFrame)) (tail : List Byte),
     (∀ x ∈ fs, Config.startChar ∉ x.1 ∧ x.2.payload.length ≤ 250) → Config.startChar ∉ tail →
     scan 0 (fs.flatMap (fun x => x.1 ++ encodeFrame x.2.kind x.2.tag x.2.payload) ++ tail) =
       (fs.map Prod.snd, [])) ∧
  (∀ a b : List Byte, scan 0 (a ++ b) =
     ((scan 0 a).1 ++ (scan 0 ((scan 0 a).2 ++ b)).1, (scan 0 ((scan 0 a).2 ++ b)).2)) ∧
  (∀ (kind tag : Byte) (p : List Byte) (check : BitVec 16) (body rest : List Byte), p.length ≤ 250 →
     check ≠ crc (BitVec.ofNat 8 p.length :: kind :: tag :: p) →
     body = BitVec.ofNat 8 p.length :: kind :: tag :: (p ++ encCheck check) →
     scan 0 (Config.startChar :: (body ++ rest)) = scan 0 (body ++ rest)) ∧
  (∀ (n : Byte) (rest : List Byte), 250 < n.toNat →
    scan 0 (Config.startChar :: n :: rest) = scan 0 (n :: rest)) ∧
  (∀ c : Byte, (hostBits c).length = 10 ∧ (hostBits c)[0]? = some .space ∧ (hostBits c)[9]? = some .mark ∧
    ∀ i, i < 8 → (hostBits c)[1 + i]? = some (if c.getLsbD i then .mark else .space)) ∧
  (∀ cs : List (Nat × Byte),
    readHrxd .idle (cs.flatMap (fun x => List.replicate x.1 .mark ++ hostBits x.2)) =
      (cs.map (fun x => .character x.2), .idle)) ∧
  (∀ (s : State) (k : Nat), (s.link.sending = none → s.htxd k = .mark) ∧
    ∀ f, s.link.sending = some f → (10 * f.chars.length ≤ k → s.htxd k = .mark) ∧
      ∀ j c i, f.chars[j]? = some c → i < 10 → (hostBits c)[i]? = some (s.htxd (10 * j + i))) ∧
  (∀ (i : Instr) (f : RxFrame) (s : State), Instr.frame? i = some f → f.payload.length ≤ 250 →
    s.link.rx = .searching →
    exec i s = .next (s.receiveLevels ((encodeFrame f.kind f.tag f.payload).flatMap hostBits))) ∧
  (∀ cs : List Byte, crc cs = (cs.flatMap (fun c => (List.range 8).map (fun i => c.getLsbD (7 - i)))).foldl
    (fun (r : BitVec 16) (b : Bool) => (r <<< 1) ^^^ (if r.msb = b then 0#16 else 0x1021#16)) 0xFFFF#16) ∧
  (∀ r : BitVec 16, encCheck r = [(r >>> 8).setWidth 8, r.setWidth 8]) ∧ Config.startChar = 0x7E#8 ∧
  ∀ (kind tag : Byte) (p : List Byte), encodeFrame kind tag p =
    0x7E#8 :: BitVec.ofNat 8 p.length :: kind :: tag ::
      (p ++ encCheck (crc (BitVec.ofNat 8 p.length :: kind :: tag :: p)))

/-- A damaged frame changes nothing (R164, R165, R180): one with a wrong check and one with a wrong length, when no
later character of it is a start character; a frame broken off by a gap, a break or a character error after any of its
characters but the last, of which the receiver already held the first `j`; and, whatever its check, a frame during
which the rate in use changed, when no later character of it is a start character. Where a whole valid frame stands
among the characters of one with a wrong check, no start character before or behind it, that frame is taken and
nothing else happens (R164). Below it, a character whose stop bit stands at the space level is a character error, and
with all data bits zero a break, which lasts until the line returns to the mark level (R162); which level is a 1 is the
family's (entry 35). -/
def Obligations.DamagedFramesChangeNothing : Prop :=
  (∀ (s : State) (kind tag : Byte) (p : List Byte) (check : BitVec 16), s.link.rx = .searching →
    p.length ≤ 250 → check ≠ crc (BitVec.ofNat 8 p.length :: kind :: tag :: p) →
    Config.startChar ∉ BitVec.ofNat 8 p.length :: kind :: tag :: (p ++ encCheck check) →
    exec (.frameBadCheck kind tag p check) s = .next s) ∧
  (∀ (s : State) (i : Instr) (f : RxFrame) (kind tag : Byte) (p pre post : List Byte) (check : BitVec 16),
    s.link.rx = .searching → p.length ≤ 250 → check ≠ crc (BitVec.ofNat 8 p.length :: kind :: tag :: p) →
    Instr.frame? i = some f → f.payload.length ≤ 250 →
    BitVec.ofNat 8 p.length :: kind :: tag :: (p ++ encCheck check) =
      pre ++ encodeFrame f.kind f.tag f.payload ++ post →
    Config.startChar ∉ pre → Config.startChar ∉ post →
    exec (.frameBadCheck kind tag p check) s = exec i s) ∧
  (∀ (s : State) (n : Byte), s.link.rx = .searching → 250 < n.toNat → exec (.wrongLength n) s = .next s) ∧
  (∀ (n : Nat) (ls : List LineLevel), readHrxd .idle (List.replicate (10 + n) .space ++ .mark :: ls) =
    (.lineBreak :: (readHrxd .idle ls).1, (readHrxd .idle ls).2)) ∧
  (∀ (c : Byte) (ls : List LineLevel), c ≠ 0#8 →
    readHrxd .idle ((hostBits c).take 9 ++ .space :: .mark :: ls) =
      (.characterError :: (readHrxd .idle ls).1, (readHrxd .idle ls).2)) ∧
  (∀ (s : State) (kind tag c : Byte) (p : List Byte) (j n : Nat) (changed : Bool), p.length ≤ 250 →
    (s.link.rx = .searching ∨ 1 ≤ j ∧ j < p.length + 6 ∧
      s.link.rx = .receiving ((encodeFrame kind tag p).take j) changed) →
    exec (.lineBreak []) s = .next (s.receiveLevels (List.replicate (10 + n) .space ++ [.mark])) ∧
    (c ≠ 0#8 → exec (.characterError []) s = .next (s.receiveLevels ((hostBits c).take 9 ++ [.space, .mark])))) ∧
  ∀ (s : State) (kind tag : Byte) (p : List Byte) (j m : Nat) (changed : Bool) (chars : List Byte),
    p.length ≤ 250 → j ≤ m →
    (j = 0 ∧ s.link.rx = .searching ∨ 1 ≤ j ∧ s.link.rx = .receiving ((encodeFrame kind tag p).take j) changed) →
    (m < p.length + 6 ∨
      1 ≤ j ∧ m = p.length + 6 ∧ changed = true ∧ Config.startChar ∉ (encodeFrame kind tag p).drop 1) →
    chars = ((encodeFrame kind tag p).take m).drop j →
    exec (.frameGap chars) s = .next { s with link := { s.link with rx := .searching } } ∧
    exec (.lineBreak chars) s = .next { s with link := { s.link with rx := .searching } } ∧
    exec (.characterError chars) s = .next { s with link := { s.link with rx := .searching } }

/-- A valid request frame that is not taken (R166, R172, R179): nothing happens in STARTING, nor while held in reset,
the latter as the model reads R179 (entry 18); with 8 replies queued or a reset pending it only shows that the plant
computer is there, and the part record that this may post starts on a free path (R169). -/
def Obligations.FramesAreDiscarded : Prop :=
  ∀ (i : Instr) (f : RxFrame) (s : State), Instr.frame? i = some f → f.payload.length ≤ 250 →
    s.link.rx = .searching →
    (s.store.rstnLow = true → exec i s = .next s) ∧
    (s.link.state = .starting → exec i s = .next s) ∧
    (s.store.rstnLow = false → s.link.state ≠ .starting →
      (8 ≤ s.link.replies.length ∨ s.link.resetPending = true) → exec i s = .next s.heard.sendReady)

/-- The checks before a block sees a request (R166, R185, R189, R190): an unknown kind, a payload of the wrong
length, and, while the store is SAVING, every SET_ request and a second STORE. -/
def Obligations.RequestsRefusedBeforeTheirBlock : Prop :=
  (∀ (s : State) (kind tag : Byte) (p : List Byte), s.TakesRequests → p.length ≤ 250 →
    ¬ (1 ≤ kind.toNat ∧ kind.toNat ≤ 0x1A) →
    exec (.unknownRequest kind tag p) s =
      .next (s.heard.replying (if kind.toNat < 128 then kind + 0x80#8 else 0xFF#8) tag .unknownRequest [])) ∧
  (∀ (i : Instr) (f : RxFrame) (s : State), Instr.frame? i = some f → 1 ≤ f.kind.toNat → f.kind.toNat ≤ 0x1A →
    s.TakesRequests → f.payload.length ≤ 250 → ¬ lengthFits f.kind f.payload →
    exec i s = .next (s.heard.replying (f.kind + 0x80#8) f.tag .badLength [])) ∧
  ∀ (i : Instr) (f : RxFrame) (s : State), Instr.frame? i = some f →
    f.kind.toNat ∈ [0x06, 0x07, 0x08, 0x0C, 0x12, 0x16, 0x17, 0x18] →
    s.TakesRequests → f.payload.length ≤ 250 → lengthFits f.kind f.payload → s.store.state = .saving →
    exec i s = .next (s.heard.replying (f.kind + 0x80#8) f.tag .storeBusy [])

/-- HCTS is found asserted (R169, R171, R192): on a free path the oldest reply's next frame starts, or else a notice
formed from the first entry of the list, which leaves it; on a busy path, and in STARTING, nothing starts. The same
choice is made at the end of every event while HCTS stands asserted, and none while it does not: that is `sendReady`,
which the other statements name; when the level is learned is entry 6. The end of a frame (R7, R169): the path is
free; the record of a CLOSED call whose notice was sent is freed, with its number, its place in the closing order and
its entry on the notice list (the last is the model's reading, entry 29); with HCTS asserted the choice of the next
frame is made again at that moment. With nothing being sent FRAME_SENT is the sampling of HCTS on the free path, found
deasserted or asserted (the model's reading, entry 6). HRDY is asserted exactly while the link is ONLINE or LOCAL, at
most 6 replies are queued and no reset is pending (R168). -/
def Obligations.FramesStartAndEnd : Prop :=
  (∀ s : State, s.hrdy = true ↔ (s.link.state = .online ∨ s.link.state = .local) ∧ s.link.replies.length ≤ 6 ∧
     s.link.resetPending = false) ∧
  ((∀ s : State, s.link.state = .starting ∨ s.link.sending ≠ none →
     exec .hctsAsserted s = .next { s with link := { s.link with hcts := true } }) ∧
   ∀ s : State, s.link.state ≠ .starting → s.link.sending = none →
     (∀ r rest, s.link.replies = r :: rest →
       exec .hctsAsserted s = .next { s with link := { s.link with
         hcts := true
         replies := if r.contents.length ≤ 248 * r.segment then rest
           else { r with segment := r.segment + 1 } :: rest
         sending := some
           { chars := encodeFrame r.kind r.tag (BitVec.ofNat 8 r.result.code ::
               BitVec.ofNat 8 (r.segment + if r.contents.length ≤ 248 * r.segment then 0x80 else 0) ::
               (r.contents.drop (248 * (r.segment - 1))).take 248)
             frees := none
             resets := decide (r.kind = 0x9A#8 ∧ r.result = .ok ∧ r.contents.length ≤ 248 * r.segment) } } }) ∧
     (s.link.replies = [] → s.link.notices = [] →
       exec .hctsAsserted s = .next { s with link := { s.link with hcts := true } }) ∧
     (∀ ks, s.link.replies = [] →
       (∀ n c, s.link.notices = .call n :: ks → s.findCall n = some c →
         exec .hctsAsserted s = .next { s with link := { s.link with
           hcts := true, notices := ks
           sending := some ⟨encodeFrame 0x40#8 0#8 (callNotice c),
             if c.state = .closed then some n else none, false⟩ } }) ∧
       (∀ c, s.link.notices = .crew c :: ks →
         exec .hctsAsserted s = .next { s with link := { s.link with
           hcts := true, notices := ks
           sending := some ⟨encodeFrame 0x41#8 0#8 (crewNotice c (s.crew c)), none, false⟩ } }) ∧
       (∀ st, s.link.notices = .station st :: ks →
         exec .hctsAsserted s = .next { s with link := { s.link with
           hcts := true, notices := ks
           sending := some ⟨encodeFrame 0x42#8 0#8 (stationNotice st (s.station st)), none, false⟩ } }) ∧
       (s.link.notices = .part :: ks →
         exec .hctsAsserted s = .next { s with link := { s.link with
           hcts := true, notices := ks
           sending := some ⟨encodeFrame 0x43#8 0#8 s.partNotice, none, false⟩ } }))) ∧
  (∀ s : State, (s.link.hcts = true → exec .hctsAsserted s = .next s.sendReady) ∧
     (s.link.hcts = false → s.sendReady = s) ∧
     (s.link.sending = none →
       exec (.frameSent false) s = .next { s with link := { s.link with hcts := false } } ∧
       exec (.frameSent true) s = exec .hctsAsserted s)) ∧
  ((∀ (s : State) (f : Frame), s.link.sending = some f → f.resets = false → f.frees = none →
     exec (.frameSent false) s = .next { s with link := { s.link with sending := none, hcts := false } } ∧
     exec (.frameSent true) s = exec .hctsAsserted { s with link := { s.link with sending := none } }) ∧
   ∀ (s u : State) (f : Frame) (n : Nat), s.link.sending = some f → f.resets = false → f.frees = some n →
     u = { s with
       book := { s.book with
         calls := s.book.calls.filter (fun c => decide (c.number ≠ n))
         closedOrder := s.book.closedOrder.filter (fun m => decide (m ≠ n)) }
       link := { s.link with
         sending := none
         notices := s.link.notices.filter (fun k => decide (k ≠ .call n)) } } →
     exec (.frameSent false) s = .next { u with link := { u.link with hcts := false } } ∧
     exec (.frameSent true) s = exec .hctsAsserted u)

/-- SILENCE_TIMER_EXPIRY (R174, R67): the link enters LOCAL, the timer is cleared, the part record is posted, and then
the calls that were PAGING with their referred flag set are advanced, in the order of the book, which is ascending
call number: the advance of each is complete, in a step that is not empty or in exhaustion, before the next begins,
and changes no other call in more than its force-wide flag. None is left PAGING with its referred flag set. -/
def Obligations.SilenceTakesTheLinkToLocal : Prop :=
  ∀ (s : State) (d : Tick) (ns : List Nat), s.link.state = .online → s.link.silence = some d →
    (s.clock - d).toNat < 8388608 → (s.book.calls.map Call.number).Pairwise (· < ·) →
    (∀ l, (s.ladder l).inRange = true) →
    ns = (s.book.calls.filter (fun c => decide (c.state = .paging) && c.referred)).map Call.number →
    ∃ path : Nat → State,
      path 0 = State.withNotice { s with link := { s.link with state := .local, silence := none } } .part ∧
      (∀ k n, ns[k]? = some n → ∃ c c', (path k).findCall n = some c ∧ (path (k + 1)).findCall n = some c' ∧
        (s.findCall n).map Call.core = some c.core ∧ (path k).AdvancesTo (path (k + 1)) c c' ∧
        .call n ∈ (path (k + 1)).link.notices ∧ EngineFrame (fun m => m = n) (path k) (path (k + 1))) ∧
      exec .silenceTimerExpiry s = .next (path ns.length).sendReady ∧
      ∀ n c, (path ns.length).findCall n = some c → c.state = .paging → c.referred = false

/-- Deadlines act at their tick and not before (R44, R122, R141, R174): an armed tick that is not reached, and one
that is not armed, leaves the state as it is. That a command which reports such an expiry changes nothing, and is no
fault, is the model's choice (entry 1). -/
def Obligations.NothingExpiresEarly : Prop :=
  ∀ (s : State) (n : Nat),
    ((∀ c d, s.findCall n = some c → c.nextRepeat = some d → 8388608 ≤ (s.clock - d).toNat) →
      exec (.repeatExpiry n) s = .next s) ∧
    ((∀ c d, s.findCall n = some c → c.stepDeadline = some d → 8388608 ≤ (s.clock - d).toNat) →
      exec (.stepDeadlineExpiry n) s = .next s) ∧
    ((∀ c d, s.findCall n = some c → c.arrivalDeadline = some d → 8388608 ≤ (s.clock - d).toNat) →
      exec (.arrivalExpiry n) s = .next s) ∧
    ((∀ d, (s.group (s.station n).group).deadline = some d → 8388608 ≤ (s.clock - d).toNat) →
      exec (.airtimeDeadlineExpiry n) s = .next s) ∧
    ((∀ d, (s.station n).due = some d → 8388608 ≤ (s.clock - d).toNat) →
      exec (.pollDue n) s = .next s) ∧
    ((∀ d, s.link.silence = some d → 8388608 ≤ (s.clock - d).toNat) →
      exec .silenceTimerExpiry s = .next s)

/-! ### Calls and the call book -/

/-- The next call number (R4): the first one after the counter, counting upward and from 65535 on to 1, that no
record in the book carries. -/
def Obligations.NextNumberIsTheFirstFreeOne : Prop :=
  ∀ b : CallBook, b.calls.length ≤ 96 →
    ∃ k ≤ 96, b.nextNumber = (b.counter + k) % 65535 + 1 ∧
      b.nextNumber ∉ b.calls.map Call.number ∧
      ∀ j < k, (b.counter + j) % 65535 + 1 ∈ b.calls.map Call.number

/-- RAISE with values in range (R4, R5, R8 to R10, R53, R55): in a free slot, or in that of the CLOSED record that
closed earliest, a record with the values of the request is created under the next number, posted, and its step 1
started. With no preferred crew the ladder's own step 1 starts, and where it is empty the call goes on to its first
step that is not, or to exhaustion. A preferred crew that is defined and ON_DUTY is the one target of step 1, which
takes its window, repeats and beacon from the ladder's; any other leaves step 1 empty (what that leaves of the window,
interval, repeats, step start and attempts of a call that is exhausted at once is open here, entry 31). The pages of
every target go out. Beyond that record, the evicted one with its notice, and the counter, only escalation's own
effects happen. -/
def Obligations.RaiseCreatesACall : Prop :=
  ∀ (s u : State) (tag : Byte) (cls : Cls) (lad origin pref : Nat) (text : Text),
    s.TakesRequests → 1 ≤ lad → lad ≤ 16 → 1 ≤ origin → origin ≤ 12 → pref ≤ 48 →
    text.length ≤ 245 → s.book.calls.length ≤ 96 → (s.ladder lad).inRange = true →
    (s.book.calls.length < 96 ∧ u = s.heard ∨
      ∃ m rest, s.book.calls.length = 96 ∧ s.book.closedOrder = m :: rest ∧ u = s.heard.without m) →
    ∃ (n : Nat) (t : State) (c c0 : Call), n = u.book.nextNumber ∧
      c0 = newCall n .plantComputer origin cls lad
        ((text.take 40).map (fun x => if 0x20 ≤ x.toNat ∧ x.toNat ≤ 0x7E then x else 0x3F#8))
        (if pref = 0 then none else some pref) s.clock ∧
      exec (.raise tag ([BitVec.ofNat 8 cls.rank, BitVec.ofNat 8 lad, BitVec.ofNat 8 origin,
          BitVec.ofNat 8 pref, BitVec.ofNat 8 text.length] ++ text)) s =
        .next (t.replying 0x81#8 tag .ok [BitVec.ofNat 8 (n / 256), BitVec.ofNat 8 n]) ∧
      t.findCall n = some c ∧
      (pref = 0 → u.AdvancesTo t { c0 with stepIndex := 0 } c) ∧
      (pref ≠ 0 → (s.crew pref).defined = true → (s.crew pref).duty = .onDuty →
        ∃ x, (s.ladder lad).steps[0]? = some x ∧
          Call.StepBegun s.clock (s.factor cls) x.window x.repeats 1 c0 c ∧ c.targets = [pref] ∧
          c.stepPool = none ∧ c.directed = false ∧ c.referred = false ∧ c.restarts = 0 ∧
          c.heldBeacon = x.beacon ∧ u.HandsOver t n false (s.pagesFor c [pref])) ∧
      (pref ≠ 0 → ¬ ((s.crew pref).defined = true ∧ (s.crew pref).duty = .onDuty) →
        u.AdvancesTo t { c0 with
          stepStart := c.stepStart, window := c.window, interval := c.interval, repeats := c.repeats
          attempts := c.attempts } c) ∧
      .call n ∈ t.link.notices ∧
      (∀ m, m ≠ n → (t.findCall m).map Call.core = (u.findCall m).map Call.core) ∧
      t.book = { u.book with calls := t.book.calls, counter := n } ∧
      t.link = { u.link with notices := t.link.notices } ∧
      t.clock = s.clock ∧ t.ladders = s.ladders ∧ t.acks = s.acks ∧ t.store = s.store ∧
      t.registry.crews = s.registry.crews ∧ t.registry.directory = s.registry.directory ∧
      t.line = { s.line with burstWaits := t.line.burstWaits }

/-- RAISE refused (R5, R9): a value out of range gives BAD_VALUE, and a book of 96 open calls BOOK_FULL. ADVANCE of a
call that is not PAGING, and DIRECT's own checks (R68, R69): WRONG_STATE for an accepted call (and, for ADVANCE,
an EXHAUSTED one), BAD_VALUE for a crew outside 1..48, NO_SUCH_ENTRY for an undefined one. The state is only that
in which the plant computer has been heard. -/
def Obligations.CallRequestsAreRefused : Prop :=
  (∀ (s : State) (tag c l o p : Byte) (text : Text), s.TakesRequests → text.length ≤ 245 →
     (3 < c.toNat ∨ l.toNat = 0 ∨ 16 < l.toNat ∨ o.toNat = 0 ∨ 12 < o.toNat ∨ 48 < p.toNat →
       exec (.raise tag ([c, l, o, p, BitVec.ofNat 8 text.length] ++ text)) s =
         .next (s.heard.replying 0x81#8 tag .badValue [])) ∧
     (c.toNat ≤ 3 → 1 ≤ l.toNat → l.toNat ≤ 16 → 1 ≤ o.toNat → o.toNat ≤ 12 → p.toNat ≤ 48 →
       96 ≤ s.book.calls.length → s.book.closedOrder = [] →
       exec (.raise tag ([c, l, o, p, BitVec.ofNat 8 text.length] ++ text)) s =
         .next (s.heard.replying 0x81#8 tag .bookFull []))) ∧
  (∀ (s : State) (tag hi lo k whi wlo r : Byte) (c : Call), s.TakesRequests →
     hi.toNat * 256 + lo.toNat ≠ 0 → s.findCall (hi.toNat * 256 + lo.toNat) = some c → c.state ≠ .closed →
     (c.state ≠ .paging → exec (.advance tag [hi, lo]) s =
       .next (s.heard.replying 0x8E#8 tag .wrongState [])) ∧
     (¬ (1 ≤ k.toNat ∧ k.toNat ≤ 48) → exec (.direct tag [hi, lo, k, whi, wlo, r]) s =
       .next (s.heard.replying 0x8F#8 tag .badValue [])) ∧
     (1 ≤ k.toNat → k.toNat ≤ 48 → (s.crew k.toNat).defined = false →
       exec (.direct tag [hi, lo, k, whi, wlo, r]) s =
         .next (s.heard.replying 0x8F#8 tag .noSuchEntry [])) ∧
     (1 ≤ k.toNat → k.toNat ≤ 48 → (s.crew k.toNat).defined = true →
       (c.state = .accepted ∨ c.state = .onScene) → exec (.direct tag [hi, lo, k, whi, wlo, r]) s =
         .next (s.heard.replying 0x8F#8 tag .wrongState [])))

/-- The finding of the call a request names (R18): CLEAR, CANCEL, ADVANCE and DIRECT are refused with BAD_VALUE
for number 0, with NO_SUCH_CALL for a number that names no record and with CALL_CLOSED for a CLOSED record,
before any check of their own, and change nothing. -/
def Obligations.NamedCallIsFoundFirst : Prop :=
  ∀ (s : State) (i : Instr) (tag kind hi lo : Byte) (rest : List Byte) (r : Result), s.TakesRequests →
    (i = .clear tag [hi, lo] ∧ kind = 0x82#8 ∨ i = .cancel tag [hi, lo] ∧ kind = 0x83#8 ∨
      i = .advance tag [hi, lo] ∧ kind = 0x8E#8 ∨
      i = .direct tag (hi :: lo :: rest) ∧ rest.length = 4 ∧ kind = 0x8F#8) →
    (hi.toNat * 256 + lo.toNat = 0 ∧ r = .badValue ∨
      hi.toNat * 256 + lo.toNat ≠ 0 ∧
        (s.findCall (hi.toNat * 256 + lo.toNat) = none ∧ r = .noSuchCall ∨
          ∃ c, s.findCall (hi.toNat * 256 + lo.toNat) = some c ∧ c.state = .closed ∧ r = .callClosed)) →
    exec i s = .next (s.heard.replying kind tag r [])

/-- CLEAR and CANCEL of an open call (R17, R19 to R21): the record is CLOSED with the request's reason, posted, and
stands last in the closing order; its waiting pages are withdrawn from every queue; close notes go to the pagers of
its accepting crew and of its undeclined targets; its accepting crew loses it; a call point that was OPEN with it is
IDLE again; other calls keep their records but for their force-wide flags. Where presses wait, the CLOSED record that
closed earliest is evicted and the oldest press raises its call. -/
def Obligations.ClearAndCancelCloseTheCall : Prop :=
  ∀ (s : State) (i : Instr) (tag kind hi lo : Byte) (r : CloseReason) (c : Call),
    s.TakesRequests →
    (i = .clear tag [hi, lo] ∧ kind = 0x82#8 ∧ r = .cleared ∨
      i = .cancel tag [hi, lo] ∧ kind = 0x83#8 ∧ r = .cancelled) →
    hi.toNat * 256 + lo.toNat ≠ 0 → s.findCall (hi.toNat * 256 + lo.toNat) = some c → c.state ≠ .closed →
    s.book.calls.length ≤ 96 → (∀ l, (s.ladder l).inRange = true) →
    ∃ t : State, exec i s = .next (t.replying kind tag .ok [hi, lo]) ∧ s.heard.ClosesAndServes t r c

/-- SET_CALLPOINT, the store not SAVING (R12). With its values in range DEFINE makes a new IDLE entry, or gives an
entry new values and leaves its state, or finds the table full; REMOVE takes out an entry that is not OPEN, with its
waiting press, and refuses an OPEN one and one that is not there, whatever its ladder, class and text characters
(R190). A station, an input, an action, or for DEFINE a ladder or a class, out of range is refused with BAD_VALUE. -/
def Obligations.CallPointsAreSet : Prop :=
  (∀ (s : State) (tag st inp a lad cls : Byte) (text : Text), s.TakesRequests → s.store.state = .idle →
    text.length ≤ 244 →
    (st.toNat = 0 ∨ 12 < st.toNat ∨ inp.toNat = 0 ∨ 4 < inp.toNat ∨ 1 < a.toNat ∨
      a = 0#8 ∧ (lad.toNat = 0 ∨ 16 < lad.toNat ∨ 3 < cls.toNat)) →
    (a ≠ 1#8 → exec (.setCallpointDefine tag ([st, inp, a, lad, cls, BitVec.ofNat 8 text.length] ++ text)) s =
      .next (s.heard.replying 0x86#8 tag .badValue [])) ∧
    (a = 1#8 → exec (.setCallpointRemove tag ([st, inp, a, lad, cls, BitVec.ofNat 8 text.length] ++ text)) s =
      .next (s.heard.replying 0x86#8 tag .badValue []))) ∧
  ∀ (s : State) (tag : Byte) (st inp lad : Nat) (cls : Cls) (text : Text), s.TakesRequests →
    s.store.state = .idle → 1 ≤ st → st ≤ 12 → 1 ≤ inp → inp ≤ 4 → 1 ≤ lad → lad ≤ 16 →
    text.length ≤ 244 →
    let clean := (text.take 40).map (fun x => if 0x20 ≤ x.toNat ∧ x.toNat ≤ 0x7E then x else 0x3F#8)
    let payload := fun (action l k : Byte) =>
      [BitVec.ofNat 8 st, BitVec.ofNat 8 inp, action, l, k, BitVec.ofNat 8 text.length] ++ text
    let define := payload 0#8 (BitVec.ofNat 8 lad) (BitVec.ofNat 8 cls.rank)
    (s.findPoint st inp = none → s.book.points.length < 32 →
      exec (.setCallpointDefine tag define) s = .next (State.replying { s.heard with
        book := { s.book with points := s.book.points ++ [⟨st, inp, lad, cls, clean, .idle⟩] } }
        0x86#8 tag .ok [])) ∧
    (∀ p, s.findPoint st inp = some p →
      exec (.setCallpointDefine tag define) s = .next (State.replying { s.heard with
        book := { s.book with points := s.book.points.map (fun q =>
          if q.station = st ∧ q.input = inp then { q with ladder := lad, cls := cls, text := clean }
          else q) } } 0x86#8 tag .ok [])) ∧
    (s.findPoint st inp = none → 32 ≤ s.book.points.length →
      exec (.setCallpointDefine tag define) s = .next (s.heard.replying 0x86#8 tag .tableFull [])) ∧
    (∀ p l k, s.findPoint st inp = some p → (∀ n, p.state ≠ .opened n) →
      exec (.setCallpointRemove tag (payload 1#8 l k)) s = .next (State.replying { s.heard with
        book := { s.book with
          points := s.book.points.filter (fun q => !decide (q.station = st ∧ q.input = inp))
          pendingPresses := s.book.pendingPresses.filter (fun k => decide (k ≠ (st, inp))) } }
        0x86#8 tag .ok [])) ∧
    (∀ p n l k, s.findPoint st inp = some p → p.state = .opened n →
      exec (.setCallpointRemove tag (payload 1#8 l k)) s =
        .next (s.heard.replying 0x86#8 tag .wrongState [])) ∧
    ∀ l k, s.findPoint st inp = none →
      exec (.setCallpointRemove tag (payload 1#8 l k)) s =
        .next (s.heard.replying 0x86#8 tag .noSuchEntry [])

/-- A press from the station line (R13 to R16): none for an unknown key; an IDLE entry raises a call where the book
has room, or in the slot of the CLOSED record that closed earliest, and goes OPEN, and goes PENDING and joins the
waiting presses where the book holds 96 open calls; an OPEN one counts the press, which advances a PAGING call and
changes nothing else of another; a PENDING one changes nothing. -/
def Obligations.PressesActByTheirEntry : Prop :=
  ∀ (s : State) (st inp : Nat),
    (s.findPoint st inp = none → s.press st inp = s) ∧
    (∀ p, s.findPoint st inp = some p → p.state = .pending → s.press st inp = s) ∧
    (∀ p, s.findPoint st inp = some p → p.state = .idle → 96 ≤ s.book.calls.length →
      s.book.closedOrder = [] →
      (s.press st inp).findPoint st inp = some { p with state := .pending } ∧
      s.press st inp = { s with book := { s.book with
        points := (s.press st inp).book.points
        pendingPresses := s.book.pendingPresses ++ [(st, inp)] } } ∧
      ∀ st' inp', (st', inp') ≠ (st, inp) → (s.press st inp).findPoint st' inp' = s.findPoint st' inp') ∧
    (∀ p, s.findPoint st inp = some p → p.state = .idle → (∀ l, (s.ladder l).inRange = true) →
      (s.book.calls.length < 96 → s.RaisesFrom (s.press st inp) p) ∧
      ∀ m rest, s.book.calls.length = 96 → s.book.closedOrder = m :: rest →
        (s.without m).RaisesFrom (s.press st inp) p) ∧
    (∀ p n c, s.findPoint st inp = some p → p.state = .opened n → s.findCall n = some c → c.state ≠ .closed →
      ∃ c', (s.press st inp).findCall n = some c' ∧ .call n ∈ (s.press st inp).link.notices ∧
        (c.state ≠ .paging → c' = { c with presses := min 255 (c.presses + 1) } ∧
          s.press st inp = { s with
            book := { s.book with calls := (s.press st inp).book.calls }
            link := { s.link with notices := (s.press st inp).link.notices } } ∧
          ∀ m, m ≠ n → (s.press st inp).findCall m = s.findCall m) ∧
        (c.state = .paging → (s.ladder c.ladder).inRange = true →
          s.AdvancesTo (s.press st inp) { c with presses := min 255 (c.presses + 1) } c' ∧
          EngineFrame (fun m => m = n) s (s.press st inp)))

/-! ### Crews, pools and the pager directory -/

/-- SET_CREW, the store not SAVING, its checks in their order (R32): a crew number, or a selected DEFINED, duty, home
station or member list out of range, and DEFINED = no with another field, give BAD_VALUE; an undefined crew without
DEFINED = yes NO_SUCH_ENTRY; DEFINED = no for a crew with a call WRONG_STATE; a selected member of another crew
PAGER_IN_USE. DEFINED = no undefines the crew (R34), whose pagers lose their entries. Any other defines or changes it
(R33, R26, R28, R29): the selected fields take the given values, the name cleaned; joining pagers get an entry with no
location, leaving ones lose theirs, the others keep it; the crew is posted when a field changed, and a request that
leaves every field as it was changes nothing. The characters of unselected fields are not checked (R190). -/
def Obligations.SetCrewChangesTheRegistry : Prop :=
  ∀ (s : State) (tag k sel d duty home : Byte) (name : Text) (members : List Nat) (bad : Prop) (x : Crew),
    s.TakesRequests → s.store.state = .idle → name.length + 2 * members.length ≤ 243 →
    (∀ m ∈ members, m < 65536) → x = s.crew k.toNat →
    (bad ↔ k.toNat = 0 ∨ 48 < k.toNat ∨ sel.getLsbD 0 = true ∧ 1 < d.toNat ∨
      sel.getLsbD 2 = true ∧ 1 < duty.toNat ∨ sel.getLsbD 4 = true ∧ (home.toNat = 0 ∨ 12 < home.toNat) ∨
      sel.getLsbD 3 = true ∧ (4 < members.length ∨ (∃ m ∈ members, m = 0 ∨ 4095 < m) ∨ ¬ members.Nodup) ∨
      sel.getLsbD 0 = true ∧ d = 0#8 ∧ (sel.getLsbD 1 = true ∨ sel.getLsbD 2 = true ∨ sel.getLsbD 3 = true ∨
        sel.getLsbD 4 = true)) →
    let outcome := exec (.setCrew tag ([k, sel, d, duty, home, BitVec.ofNat 8 name.length] ++ name ++
      (BitVec.ofNat 8 members.length :: members.flatMap (fun m => [BitVec.ofNat 8 (m / 256), BitVec.ofNat 8 m])))) s
    let refused := fun (r : Result) => outcome = .next (s.heard.replying 0x87#8 tag r [])
    let frame := fun (t : State) => t = { s.heard with
      registry := { s.registry with crews := t.registry.crews, directory := t.registry.directory }
      link := { s.heard.link with notices := t.link.notices } }
    let undefines := sel.getLsbD 0 = true ∧ d = 0#8
    let elsewhere := sel.getLsbD 3 = true ∧
      ∃ m ∈ members, ∃ e, s.pagerEntry? m = some e ∧ e.owner ≠ k.toNat
    (bad → refused .badValue) ∧
    (¬ bad → x.defined = false → ¬ (sel.getLsbD 0 = true ∧ d = 1#8) → refused .noSuchEntry) ∧
    (¬ bad → x.defined = true → undefines → x.accepted ≠ [] → refused .wrongState) ∧
    (¬ bad → x.defined = true → undefines → x.accepted = [] →
      ∃ t : State, outcome = .next (t.replying 0x87#8 tag .ok [k]) ∧
        t.crew k.toNat = ⟨false, [], .offDuty, [], 1, []⟩ ∧ (∀ j, j ≠ k.toNat → t.crew j = s.crew j) ∧
        (∀ m, t.pagerEntry? m = if m ∈ x.members then none else s.pagerEntry? m) ∧
        .crew k.toNat ∈ t.link.notices ∧ frame t) ∧
    (¬ bad → x.defined = true ∨ sel.getLsbD 0 = true → ¬ undefines → elsewhere → refused .pagerInUse) ∧
    (¬ bad → x.defined = true ∨ sel.getLsbD 0 = true → ¬ undefines → ¬ elsewhere → s.RegistrySound →
      ∃ (t : State) (y : Crew), outcome = .next (t.replying 0x87#8 tag .ok [k]) ∧
        y = { x with
          defined := true
          name := if sel.getLsbD 1 then
            (name.take 12).map (fun z => if 0x20 ≤ z.toNat ∧ z.toNat ≤ 0x7E then z else 0x3F#8) else x.name
          duty := if sel.getLsbD 2 then (if duty = 0#8 then .offDuty else .onDuty) else x.duty
          members := if sel.getLsbD 3 then members else x.members
          home := if sel.getLsbD 4 then home.toNat else x.home } ∧
        t.crew k.toNat = y ∧ (∀ j, j ≠ k.toNat → t.crew j = s.crew j) ∧
        (∀ m, t.pagerEntry? m =
          if m ∈ y.members then (if m ∈ x.members then s.pagerEntry? m else some ⟨m, k.toNat, none⟩)
          else if m ∈ x.members then none else s.pagerEntry? m) ∧
        (y ≠ x → .crew k.toNat ∈ t.link.notices) ∧ (y = x → t = s.heard) ∧ frame t)

/-- SET_POOL, the store not SAVING (R39): a list in range replaces the pool's, with the pointer at its last
position (0 for an empty list); every other list is refused with BAD_VALUE and changes nothing. -/
def Obligations.SetPoolReplacesTheList : Prop :=
  ∀ (s : State) (tag p : Byte) (cs : List Byte), s.TakesRequests → s.store.state = .idle →
    cs.length ≤ 248 →
    ((1 ≤ p.toNat ∧ p.toNat ≤ 16 ∧ cs.length ≤ 8 ∧ (∀ c ∈ cs, 1 ≤ c.toNat ∧ c.toNat ≤ 48) ∧ cs.Nodup) →
      ∃ t, exec (.setPool tag (p :: BitVec.ofNat 8 cs.length :: cs)) s =
          .next (State.replying t 0x88#8 tag .ok []) ∧
        t.pool p.toNat = ⟨cs.map BitVec.toNat, cs.length⟩ ∧ (∀ k, k ≠ p.toNat → t.pool k = s.pool k) ∧
        t = { s.heard with registry := { s.registry with pools := t.registry.pools } }) ∧
    (¬ (1 ≤ p.toNat ∧ p.toNat ≤ 16 ∧ cs.length ≤ 8 ∧ (∀ c ∈ cs, 1 ≤ c.toNat ∧ c.toNat ≤ 48) ∧
        cs.Nodup) →
      exec (.setPool tag (p :: BitVec.ofNat 8 cs.length :: cs)) s =
        .next (s.heard.replying 0x88#8 tag .badValue []))

/-- QUERY_CREW, QUERY_POOL, QUERY_PAGER and QUERY_LADDER (R40, R41, R49): the record as it stands, or the refusal;
nothing else. -/
def Obligations.RegistryAndLadderQueriesReport : Prop :=
  (∀ (s : State) (tag n hi lo : Byte), s.TakesRequests →
     (1 ≤ n.toNat → n.toNat ≤ 48 → exec (.queryCrew tag [n]) s =
       .next (s.heard.replying 0x89#8 tag .ok (crewNotice n.toNat (s.crew n.toNat)))) ∧
     (¬ (1 ≤ n.toNat ∧ n.toNat ≤ 48) → exec (.queryCrew tag [n]) s =
       .next (s.heard.replying 0x89#8 tag .badValue [])) ∧
     (1 ≤ n.toNat → n.toNat ≤ 16 → exec (.queryPool tag [n]) s =
       .next (s.heard.replying 0x8A#8 tag .ok ([BitVec.ofNat 8 (s.pool n.toNat).crews.length] ++
         (s.pool n.toNat).crews.map (BitVec.ofNat 8) ++ [BitVec.ofNat 8 (s.pool n.toNat).pointer]))) ∧
     (¬ (1 ≤ n.toNat ∧ n.toNat ≤ 16) → exec (.queryPool tag [n]) s =
       .next (s.heard.replying 0x8A#8 tag .badValue [])) ∧
     (¬ (1 ≤ hi.toNat * 256 + lo.toNat ∧ hi.toNat * 256 + lo.toNat ≤ 4095) →
       exec (.queryPager tag [hi, lo]) s = .next (s.heard.replying 0x8B#8 tag .badValue [])) ∧
     (1 ≤ hi.toNat * 256 + lo.toNat → hi.toNat * 256 + lo.toNat ≤ 4095 →
       s.pagerEntry? (hi.toNat * 256 + lo.toNat) = none →
       exec (.queryPager tag [hi, lo]) s = .next (s.heard.replying 0x8B#8 tag .noSuchEntry [])) ∧
     ∀ e, 1 ≤ hi.toNat * 256 + lo.toNat → hi.toNat * 256 + lo.toNat ≤ 4095 →
       s.pagerEntry? (hi.toNat * 256 + lo.toNat) = some e →
       exec (.queryPager tag [hi, lo]) s = .next (s.heard.replying 0x8B#8 tag .ok
         ([BitVec.ofNat 8 e.owner] ++
           (match e.location with
             | none => [0#8, 0#8, 0#8, 0#8, 0#8, 0#8]
             | some l => [1#8, BitVec.ofNat 8 l.station, BitVec.ofNat 8 l.quality] ++ enc3 l.heard.toNat) ++
           enc3 s.clock.toNat))) ∧
  (∀ (s : State) (tag n : Byte), s.TakesRequests →
     (1 ≤ n.toNat → n.toNat ≤ 16 → exec (.queryLadder tag [n]) s =
       .next (s.heard.replying 0x8D#8 tag .ok
         ([n, BitVec.ofNat 8 ((s.ladder n.toNat).arrival / 256), BitVec.ofNat 8 (s.ladder n.toNat).arrival,
           BitVec.ofNat 8 (s.ladder n.toNat).restartLimit,
           BitVec.ofNat 8 ((s.ladder n.toNat).exhaustBeacon.getD 0),
           BitVec.ofNat 8 (s.ladder n.toNat).steps.length] ++
           (s.ladder n.toNat).steps.flatMap (fun x =>
             (match x.kind with
               | .crew c => [0#8, BitVec.ofNat 8 c]
               | .poolOne p => [1#8, BitVec.ofNat 8 p]
               | .poolAll p => [2#8, BitVec.ofNat 8 p]
               | .refer => [3#8, 0#8]
               | .noTarget => [4#8, 0#8]) ++
             [BitVec.ofNat 8 (x.window / 256), BitVec.ofNat 8 x.window, BitVec.ofNat 8 x.repeats,
               BitVec.ofNat 8 (x.beacon.getD 0)])))) ∧
     (¬ (1 ≤ n.toNat ∧ n.toNat ≤ 16) → exec (.queryLadder tag [n]) s =
       .next (s.heard.replying 0x8D#8 tag .badValue [])))

/-- A choice of one crew from a pool (R36, R37): the first eligible crew from the position after the pointer round to
the pointer's own, and the pointer moves to it; with none eligible nothing moves. A choice of all crews (R38):
every eligible crew, in list order. -/
def Obligations.PoolChoices : Prop :=
  (∀ (s : State) (p : Nat) (targets declined : List Nat), 1 ≤ p → p ≤ 16 →
     (s.pool p).pointer ≤ (s.pool p).crews.length →
     let l := (s.pool p).crews
     let fits := fun (c : Nat) => (s.crew c).defined = true ∧ (s.crew c).duty = .onDuty ∧
       (s.crew c).accepted = [] ∧ c ∉ targets ∧ c ∉ declined
     ((∀ c ∈ l, ¬ fits c) → s.chooseOne p targets declined = (none, s)) ∧
     ∀ j, j < l.length → (∃ c, l[((s.pool p).pointer + j) % l.length]? = some c ∧ fits c) →
       (∀ i, i < j → ∀ c, l[((s.pool p).pointer + i) % l.length]? = some c → ¬ fits c) →
       ∃ t, s.chooseOne p targets declined = (l[((s.pool p).pointer + j) % l.length]?, t) ∧
         t.pool p = ⟨l, ((s.pool p).pointer + j) % l.length + 1⟩ ∧ (∀ k, k ≠ p → t.pool k = s.pool k) ∧
         t = { s with registry := { s.registry with pools := t.registry.pools } }) ∧
  (∀ (s : State) (p : Nat) (targets declined : List Nat),
     (s.chooseAll p targets declined).Sublist (s.pool p).crews ∧
     ∀ c, (s.chooseAll p targets declined).count c =
       if (s.crew c).defined = true ∧ (s.crew c).duty = .onDuty ∧ (s.crew c).accepted = [] ∧
         c ∉ targets ∧ c ∉ declined then (s.pool p).crews.count c else 0)

/-! ### Ladders and escalation -/

/-- SET_LADDER, the store not SAVING (R47, R48): the ladder with its windows and repeats clamped replaces the old
one and is what the reply shows; a number, a step count, a restart limit or an exhaust beacon out of range is
refused with BAD_VALUE, and so is a list with a step whose kind is none of the five, whose CREW or pool operand is out
of range, or whose beacon is, whatever its other characters; the operand of a REFER or NONE step is not checked and
not kept (R190). -/
def Obligations.SetLadderReplacesTheLadder : Prop :=
  (∀ (s : State) (tag lad hi lo restarts xb : Byte) (steps : List (Vector Byte 6)), s.TakesRequests →
    s.store.state = .idle → steps.length ≤ 40 →
    (∃ x ∈ steps, 4 < x[0].toNat ∨ x[0].toNat = 0 ∧ (x[1].toNat = 0 ∨ 48 < x[1].toNat) ∨
      (x[0].toNat = 1 ∨ x[0].toNat = 2) ∧ (x[1].toNat = 0 ∨ 16 < x[1].toNat) ∨ 8 < x[5].toNat) →
    exec (.setLadder tag ([lad, hi, lo, restarts, xb, BitVec.ofNat 8 steps.length] ++
        steps.flatMap Vector.toList)) s = .next (s.heard.replying 0x8C#8 tag .badValue [])) ∧
  ∀ (s : State) (tag : Byte) (lad arrival restarts xb : Nat) (steps : List (LadderStep × Byte)),
    s.TakesRequests → s.store.state = .idle → lad < 256 → arrival < 65536 → restarts < 256 → xb < 256 →
    steps.length ≤ 40 →
    (∀ x ∈ steps, x.1.kind.inRange = true ∧ x.1.window < 65536 ∧ x.1.repeats < 256 ∧
      ∀ z, x.1.beacon = some z → 1 ≤ z ∧ z ≤ 8) →
    let payload := [BitVec.ofNat 8 lad, BitVec.ofNat 8 (arrival / 256), BitVec.ofNat 8 arrival,
      BitVec.ofNat 8 restarts, BitVec.ofNat 8 xb, BitVec.ofNat 8 steps.length] ++
      steps.flatMap (fun x => if x.1.kind = .refer ∨ x.1.kind = .noTarget then (encStep x.1).set 1 x.2
        else encStep x.1)
    ((1 ≤ lad ∧ lad ≤ 16 ∧ 1 ≤ steps.length ∧ steps.length ≤ 8 ∧ restarts ≤ 3 ∧ xb ≤ 8) →
      ∃ (t : State) (l : Ladder),
        l = ⟨steps.map (fun x => { x.1 with
            window := max 5 (min 900 x.1.window), repeats := min 7 x.1.repeats }),
          max 30 (min 900 arrival), restarts, if xb = 0 then none else some xb⟩ ∧
        exec (.setLadder tag payload) s = .next (t.replying 0x8C#8 tag .ok (ladderReply lad l)) ∧
        t.ladder lad = l ∧ (∀ k, k ≠ lad → t.ladder k = s.ladder k) ∧
        t = { s.heard with ladders := t.ladders }) ∧
    (¬ (1 ≤ lad ∧ lad ≤ 16 ∧ 1 ≤ steps.length ∧ steps.length ≤ 8 ∧ restarts ≤ 3 ∧ xb ≤ 8) →
      exec (.setLadder tag payload) s = .next (s.heard.replying 0x8C#8 tag .badValue []))

/-- Window and repeat arithmetic (R56, R57): the window is B × f clamped to 40..14,400 ticks; the effective
repeats are the most, up to R, that leave at least 24 ticks between sends; the last repeat falls strictly before
the step deadline. -/
def Obligations.RepeatsFitTheWindow : Prop :=
  ∀ base factor r : Nat,
    let w := windowTicks base factor
    let k := effectiveRepeats w r
    w = max 40 (min 14400 (base * factor)) ∧ k ≤ r ∧ repeatInterval w r = w / (k + 1) ∧
      (1 ≤ k → 24 ≤ w / (k + 1)) ∧ (∀ j, k < j → j ≤ r → w / (j + 1) < 24) ∧
      k * repeatInterval w r < w

/-- An advance whose next step is not empty (R51, R52, R55, R60, R63, R64, R68), be it the step after the one the call
is in or, past the last with a restart left, step 1 of the ladder: that step starts, with the class factor and the
ladder as they stand. Its targets are the crew of a CREW step, defined and ON_DUTY; the one crew chosen for a POOL_ONE
step, whose pool's pointer moves (R37); every crew chosen for a POOL_ALL step (R38); none for a NONE step, and none
for a REFER step, which sets the referred flag while the link is ONLINE (R66). A PAGE item for every member pager
of every target goes to the locator and the scheduler. A REFER step of an ADVANCE is resolved in the state in which
the plant computer has been heard, which is ONLINE (R175). -/
def Obligations.AdvanceStartsTheNextStep : Prop :=
  ∀ (s u : State) (i : Instr) (n j r : Nat) (c : Call) (x : LadderStep) (wrap : State → State)
    (tag hi lo : Byte),
    s.findCall n = some c → c.state = .paging →
    (j = c.stepIndex + 1 ∧ r = c.restarts ∨
      (s.ladder c.ladder).steps.length ≤ c.stepIndex ∧ c.restarts < (s.ladder c.ladder).restartLimit ∧ j = 1 ∧
        r = c.restarts + 1) →
    (s.ladder c.ladder).steps[j - 1]? = some x → ¬ u.emptyStep x.kind →
    (i = .advance tag [hi, lo] ∧ s.TakesRequests ∧ n = hi.toNat * 256 + lo.toNat ∧ n ≠ 0 ∧ u = s.heard ∧
        wrap = (fun t => t.replying 0x8E#8 tag .ok [hi, lo]) ∨
      i = .stepDeadlineExpiry n ∧ u = s ∧ wrap = State.sendReady ∧
        ∃ d, c.stepDeadline = some d ∧ (s.clock - d).toNat < 8388608) →
    ∃ (t : State) (c' : Call), exec i s = .next (wrap t) ∧ t.findCall n = some c' ∧
      Call.StepBegun s.clock (s.factor c.cls) x.window x.repeats j c c' ∧
      u.Resolves t x.kind c' ∧ c'.restarts = r ∧
      c'.heldBeacon = (match x.beacon with | none => c.heldBeacon | some z => some z) ∧
      u.HandsOver t n false (s.pagesFor c c'.targets) ∧ .call n ∈ t.link.notices

/-- Every advance ends in a step that is not empty, its pages going out, or in exhaustion (R54, R55, R60, R63 to R65,
R68, R71), whether by ADVANCE, by the step deadline or by the arrival deadline, which first releases the crew. Every
step passed over on the way, through a restart too, is empty (R52, R54), and a call is exhausted only where all that
are left, and all of the ladder while a restart is left, are; the step that starts has its targets by its kind. The
call is posted, other calls keep their records but for their force-wide flags, and the clock, the tables, the
acknowledgements, the store and the station line's records stay. -/
def Obligations.AdvancesEndInAStepOrExhaustion : Prop :=
  ∀ (s u : State) (i : Instr) (n : Nat) (c c0 : Call) (wrap : State → State) (tag hi lo : Byte),
    s.findCall n = some c → (s.ladder c.ladder).inRange = true →
    (i = .advance tag [hi, lo] ∧ s.TakesRequests ∧ n = hi.toNat * 256 + lo.toNat ∧ n ≠ 0 ∧
        c.state = .paging ∧ c0 = c ∧ u = s.heard ∧
        wrap = (fun t => t.replying 0x8E#8 tag .ok [hi, lo]) ∨
      i = .stepDeadlineExpiry n ∧ c.state = .paging ∧ c0 = c ∧ u = s ∧ wrap = State.sendReady ∧
        (∃ d, c.stepDeadline = some d ∧ (s.clock - d).toNat < 8388608) ∨
      i = .arrivalExpiry n ∧ c.state = .accepted ∧ wrap = State.sendReady ∧
        (∃ d, c.arrivalDeadline = some d ∧ (s.clock - d).toNat < 8388608) ∧
        c0 = { c with state := .paging, accepting := none, arrivalDeadline := none } ∧
        ∃ a, c.accepting = some a ∧ u = State.withNotice (s.putCrew a { s.crew a with
          accepted := (s.crew a).accepted.filter (fun m => decide (m ≠ n)) }) (.crew a)) →
    ∃ (t : State) (c' : Call), exec i s = .next (wrap t) ∧ t.findCall n = some c' ∧
      u.AdvancesTo t c0 c' ∧
      .call n ∈ t.link.notices ∧ (∀ a, c.state = .accepted → c.accepting = some a → .crew a ∈ t.link.notices) ∧
      (∀ m, m ≠ n → (t.findCall m).map Call.core = (s.findCall m).map Call.core) ∧
      t.clock = s.clock ∧ t.ladders = s.ladders ∧ t.acks = s.acks ∧ t.store = s.store ∧
      t.registry.crews = u.registry.crews ∧ t.registry.directory = s.registry.directory ∧
      (∀ k, (t.pool k).crews = (s.pool k).crews) ∧
      t.link = { u.link with notices := t.link.notices } ∧
      t.line = { s.line with burstWaits := t.line.burstWaits } ∧ t.book = { s.book with calls := t.book.calls }

/-- REPEAT_EXPIRY (R59): a REPAGE item with the attempt index k, for each member pager of each undeclined target,
in order, goes to the locator and the scheduler; attempts becomes k + 1, and the next repeat is armed at step
start + (k + 1) × I while k + 1 is at most R_eff. -/
def Obligations.RepeatsGoToTheUndeclinedTargets : Prop :=
  ∀ (s : State) (n : Nat) (c : Call) (d : Tick), s.findCall n = some c → c.state = .paging →
    c.nextRepeat = some d → (s.clock - d).toNat < 8388608 →
    ∃ (t : State) (c' : Call), exec (.repeatExpiry n) s = .next t.sendReady ∧ t.findCall n = some c' ∧
      c'.core = { c with
        attempts := c.attempts + 1
        nextRepeat := if c.attempts + 1 ≤ c.repeats then
          some (c.stepStart + BitVec.ofNat 24 ((c.attempts + 1) * c.interval)) else none }.core ∧
      .call n ∈ t.link.notices ∧
      t.sched = (forEach ((c.targets.filter (fun k => !c.declined.contains k)).flatMap (fun k =>
          (s.crew k).members.map (fun pager =>
            (⟨pager, n, .repage, c.cls, c.text, c.attempts⟩ : Item)))) State.produce s).sched ∧
      EngineFrame (fun m => m = n) s t

/-- DIRECT of a PAGING or EXHAUSTED call (R70): a directed step to the one crew, its window from the request's
values clamped; the step index is kept, or for an EXHAUSTED call becomes the ladder's length; the held beacon
stays; a PAGE item for every member pager of the crew goes to the locator and the scheduler. -/
def Obligations.DirectStartsADirectedStep : Prop :=
  ∀ (s : State) (tag hi lo k whi wlo r : Byte) (n : Nat) (c : Call), s.TakesRequests →
    n = hi.toNat * 256 + lo.toNat → n ≠ 0 → s.findCall n = some c →
    (c.state = .paging ∨ c.state = .exhausted) → 1 ≤ k.toNat → k.toNat ≤ 48 →
    (s.crew k.toNat).defined = true →
    ∃ (t : State) (c' : Call), exec (.direct tag [hi, lo, k, whi, wlo, r]) s =
        .next (t.replying 0x8F#8 tag .ok [hi, lo]) ∧ t.findCall n = some c' ∧
      Call.StepBegun s.clock (s.factor c.cls) (max 5 (min 900 (whi.toNat * 256 + wlo.toNat)))
        (min 7 r.toNat) (if c.state = .exhausted then (s.ladder c.ladder).steps.length else c.stepIndex)
        c c' ∧
      c'.targets = [k.toNat] ∧ c'.directed = true ∧ c'.referred = false ∧ c'.stepPool = none ∧
      c'.heldBeacon = c.heldBeacon ∧ s.HandsOver t n false (s.pagesFor c [k.toNat]) ∧
      c'.restarts = c.restarts ∧ .call n ∈ t.link.notices ∧
      EngineFrame (fun m => m = n) s.heard t

/-! ### Finding the pager -/

/-- The station set of a PAGE or REPAGE item (R98, R101, R102) and of a note (R103), case by case. -/
def Obligations.StationSetsWidenByAttempt : Prop :=
  ∀ (s : State) (i : Item),
    let all := (List.range' 1 12).filter (fun st => s.usable st)
    let near := fun (st : Nat) => all.filter (fun x => decide (x = st ∨ x ∈ (s.station st).neighbours))
    let fresh := fun (st : Nat) => ∃ e l, s.pagerEntry? i.pager = some e ∧ e.location = some l ∧
      l.station = st ∧ (s.clock - l.heard).toNat ≤ s.store.params.freshness * 8 ∧ s.usable st = true
    let asks := i.kind = .page ∨ i.kind = .repage
    let wide := ∃ c, s.findCall i.call = some c ∧ c.forceWide = true
    (asks → i.cls = .emergency ∨ wide ∨ (∀ st, ¬ fresh st) ∨ 2 ≤ i.attempt → s.chooseStations i = all) ∧
    (∀ st, asks → i.cls ≠ .emergency → ¬ wide → fresh st → i.attempt = 0 → s.chooseStations i = [st]) ∧
    (∀ st, asks → i.cls ≠ .emergency → ¬ wide → fresh st → i.attempt = 1 →
      s.chooseStations i = near st) ∧
    (∀ st, ¬ asks → fresh st → s.chooseStations i = near st) ∧
    (¬ asks → (∀ st, ¬ fresh st) → s.chooseStations i = all)

/-- The update of a location by a record's position (R96): replaced when heard more than 16 ticks after the
stored one, or within 16 ticks of it either way with better quality; kept otherwise. -/
def Obligations.LocationUpdateRule : Prop :=
  ∀ (s : State) (pager : Nat) (e : PagerEntry) (new : Location), s.pagerEntry? pager = some e →
    (e.location = none → (s.seePager pager new).pagerEntry? pager = some { e with location := some new }) ∧
    (∀ old, e.location = some old →
      (s.seePager pager new).pagerEntry? pager = some { e with
        location :=
          if 17 ≤ (new.heard - old.heard).toNat ∧ (new.heard - old.heard).toNat < 8388608 then some new
          else if ((new.heard - old.heard).toNat ≤ 16 ∨ 16777200 ≤ (new.heard - old.heard).toNat) ∧
            old.quality < new.quality then some new
          else some old }) ∧
    ∀ p, p ≠ pager → (s.seePager pager new).pagerEntry? p = s.pagerEntry? p

/-- LOCATION_EXPIRY (R97): every location whose age has reached 2^23 becomes absent. DEDUPE_ENTRY_EXPIRY (R76):
exactly the entries older than the dedupe window leave the list. Nothing else changes. -/
def Obligations.AgeingForgets : Prop :=
  (∀ s : State, ∃ t, exec .locationExpiry s = .next t ∧
     (∀ p, t.pagerEntry? p = (s.pagerEntry? p).map (fun e => { e with
       location := e.location.filter (fun l => decide ((s.clock - l.heard).toNat < 8388608)) })) ∧
     t = { s with registry := { s.registry with directory := t.registry.directory } } ∧
     t.registry.directory.length = s.registry.directory.length) ∧
  (∀ s : State, exec .dedupeEntryExpiry s = .next { s with
     acks := s.acks.filter (fun e =>
       decide ((s.clock - e.heard).toNat ≤ s.store.params.dedupe * 8)) })

/-! ### Acknowledgements -/

/-- The taking of an ACK record (R73 to R77, R79): the location step comes first for every record, and a duplicate
does nothing else. Any other is entered in the list: after the entries as old as it or older, by age at the take tick,
and in a full list in place of the oldest; but not where it is outside the window, nor where the list is full and all
its entries are younger. Then a record of a pager with no entry, for no record, for a CLOSED call or heard before the
call was raised does nothing more, and every other acts on its call, by its kind, for the crew that owns the pager. -/
def Obligations.DuplicateAndStrayRecordsActOnNothing : Prop :=
  ∀ (s : State) (st : Nat) (r : AckRecord), r.age < 16777216 →
    let heard := s.clock - BitVec.ofNat 24 r.age
    let seen := s.seePager r.pager ⟨st, r.quality, heard⟩
    let age := fun (e : AckEntry) => (s.clock - e.heard).toNat
    let early := fun (c : Call) => 1 ≤ (c.raiseTick - heard).toNat ∧ (c.raiseTick - heard).toNat < 8388608
    let entered := fun (old new : List AckEntry) => ∃ before after, old = before ++ after ∧
      new = before ++ ⟨r.pager, r.call, r.kind, heard, st⟩ :: after ∧
      (∀ e ∈ before, r.age ≤ age e) ∧ ∀ e ∈ after.head?, age e < r.age
    ((∃ e ∈ s.acks, e.pager = r.pager ∧ e.call = r.call ∧ e.kind = r.kind) → s.takeAck st r = seen) ∧
    ((∀ e ∈ s.acks, ¬ (e.pager = r.pager ∧ e.call = r.call ∧ e.kind = r.kind)) →
      ∃ acks u, u = { seen with acks := acks } ∧
        (s.store.params.dedupe * 8 < r.age → acks = s.acks) ∧
        (r.age ≤ s.store.params.dedupe * 8 → s.acks.length < 64 → entered s.acks acks) ∧
        (r.age ≤ s.store.params.dedupe * 8 → 64 ≤ s.acks.length →
          ((∀ e ∈ s.acks, age e < r.age) → acks = s.acks) ∧
          ((∃ e ∈ s.acks, r.age ≤ age e) → entered (s.acks.drop 1) acks)) ∧
        ((s.pagerEntry? r.pager = none ∨ s.findCall r.call = none ∨
            ∃ c, s.findCall r.call = some c ∧ (c.state = .closed ∨ early c)) → s.takeAck st r = u) ∧
        ∀ w c, s.pagerEntry? r.pager = some w → s.findCall r.call = some c → c.state ≠ .closed → ¬ early c →
          (r.kind = .accept → s.takeAck st r = u.ackAccept c w.owner heard) ∧
          (r.kind = .decline → s.takeAck st r = u.ackDecline c w.owner) ∧
          (r.kind = .onScene → s.takeAck st r = u.ackOnScene c w.owner heard) ∧
          (r.kind = .done → s.takeAck st r = u.ackDone c w.owner))

/-- The acceptance of a PAGING or EXHAUSTED call by a crew of its paged set with room (R80 to R82, R58): the
record, the crew's accepted list, the withdrawn pages and the stand-downs to every other undeclined crew of the
paged set, in order. A crew outside the paged set is stray. One whose accepted list is full is posted, and its ACCEPT
or ON_SCENE is then a decline (R83, R86). An ACCEPT for a call that is taken already changes no call: it is stray from
the accepting crew and from a crew that was sent stand-downs, and any other crew's pagers are stood down now, with
the name of the accepting crew (R84). -/
def Obligations.AcceptanceTakesTheCall : Prop :=
  (∀ (s : State) (c : Call) (crew : Nat) (heard : Tick), s.findCall c.number = some c →
    (c.state = .paging ∨ c.state = .exhausted) → crew ∈ c.paged → (s.crew crew).accepted.length < 3 →
    1 ≤ crew → crew ≤ 48 →
    ∃ (t u : State) (c' : Call), s.ackAccept c crew heard = t ∧ t.findCall c.number = some c' ∧
      c'.core = { c with
        state := .accepted
        accepting := some crew
        acceptTick := some heard
        onSceneTick := none
        stepDeadline := none
        nextRepeat := none
        arrivalDeadline := some (s.clock + BitVec.ofNat 24
          (max 40 (min 14400 ((s.ladder c.ladder).arrival * s.factor c.cls))))
        heldBeacon := none
        referred := false
        directed := false }.core ∧
      t.crew crew = { s.crew crew with accepted := (s.crew crew).accepted ++ [c.number] } ∧
      (∀ k, k ≠ crew → t.crew k = s.crew k) ∧
      .call c.number ∈ t.link.notices ∧ .crew crew ∈ t.link.notices ∧
      (∀ st x, x ∈ (t.queue st).waiting → x.call = c.number → x.kind ≠ .page ∧ x.kind ≠ .repage) ∧
      (∀ m, m ≠ c.number → (t.findCall m).map Call.core = (s.findCall m).map Call.core) ∧
      t = forEach ((c.paged.filter (fun k => decide (k ≠ crew) && !c.declined.contains k)).flatMap
          (fun k => (s.crew k).members.map (fun pager =>
            (⟨pager, c.number, .standDown, c.cls, (s.crew crew).name, 0⟩ : Item)))) State.produce u ∧
      u.sched = (s.withdrawPages c.number).sched ∧ u.line = s.line ∧
      u.registry.directory = s.registry.directory ∧ t.clock = s.clock ∧ t.store = s.store ∧
      t.ladders = s.ladders ∧ t.acks = s.acks ∧ t.line = { s.line with burstWaits := t.line.burstWaits }) ∧
  (∀ (s : State) (c : Call) (crew : Nat) (heard : Tick), (c.state = .paging ∨ c.state = .exhausted) →
    (crew ∉ c.paged → s.ackAccept c crew heard = s ∧ s.ackOnScene c crew heard = s) ∧
    (crew ∈ c.paged → 3 ≤ (s.crew crew).accepted.length →
      s.ackAccept c crew heard = (s.withNotice (.crew crew)).ackDecline c crew ∧
      s.ackOnScene c crew heard = (s.withNotice (.crew crew)).ackDecline c crew)) ∧
  ∀ (s : State) (c : Call) (crew a : Nat) (heard : Tick), (c.state = .accepted ∨ c.state = .onScene) →
    c.accepting = some a →
    (crew = a ∨ crew ∈ c.paged ∧ crew ∉ c.declined → s.ackAccept c crew heard = s) ∧
    (crew ≠ a → (crew ∈ c.declined ∨ crew ∉ c.paged) → s.ackAccept c crew heard =
      forEach ((s.crew crew).members.map (fun pager =>
        (⟨pager, c.number, .standDown, c.cls, (s.crew a).name, 0⟩ : Item))) State.produce s)

/-- ON_SCENE and DONE (R86 to R88). ON_SCENE of the accepting crew clears the arrival deadline and is never recorded
before the acceptance; of a crew of the paged set with room, for a call no crew has taken, it is the acceptance
followed at once by the arrival, at the same tick. DONE of the accepting crew closes the call with reason
DONE_BY_CREW, with its close notes and the serving of a waiting press (R17, R20, R21). Both are stray from another
crew, an ON_SCENE for a call that is ON_SCENE changes nothing, and a DONE for a call that pages or is exhausted is
stray, whether or not the call was accepted before. -/
def Obligations.ArrivalAndDoneOfTheAcceptor : Prop :=
  ∀ (s : State) (c : Call) (crew : Nat) (heard : Tick), s.findCall c.number = some c →
    (c.state = .accepted → c.accepting = some crew →
      ∃ c', (s.ackOnScene c crew heard).findCall c.number = some c' ∧
        c' = { c with
          state := .onScene
          arrivalDeadline := none
          onSceneTick := some (match c.acceptTick with
            | none => heard
            | some a => if 1 ≤ (a - heard).toNat ∧ (a - heard).toNat < 8388608 then a else heard) } ∧
        .call c.number ∈ (s.ackOnScene c crew heard).link.notices ∧
        s.ackOnScene c crew heard = { s with
          book := { s.book with calls := (s.ackOnScene c crew heard).book.calls }
          link := { s.link with notices := (s.ackOnScene c crew heard).link.notices } } ∧
        ∀ m, m ≠ c.number → (s.ackOnScene c crew heard).findCall m = s.findCall m) ∧
    ((c.state = .paging ∨ c.state = .exhausted) → crew ∈ c.paged → (s.crew crew).accepted.length < 3 →
      ∃ (u : State) (c1 : Call), s.ackAccept c crew heard = u ∧ u.findCall c.number = some c1 ∧
        (s.ackOnScene c crew heard).findCall c.number = some { c1 with
          state := .onScene, arrivalDeadline := none, onSceneTick := some heard } ∧
        s.ackOnScene c crew heard =
          { u with book := { u.book with calls := (s.ackOnScene c crew heard).book.calls } } ∧
        ∀ m, m ≠ c.number → (s.ackOnScene c crew heard).findCall m = u.findCall m) ∧
    ((c.state = .accepted ∨ c.state = .onScene) → c.accepting = some crew →
      s.book.calls.length ≤ 96 → (∀ l, (s.ladder l).inRange = true) →
      s.ClosesAndServes (s.ackDone c crew) .doneByCrew c) ∧
    ((c.state = .accepted ∨ c.state = .onScene) → c.accepting ≠ some crew →
      s.ackOnScene c crew heard = s ∧ s.ackDone c crew = s) ∧
    (c.state = .onScene → s.ackOnScene c crew heard = s) ∧
    ((c.state = .paging ∨ c.state = .exhausted) → s.ackDone c crew = s)

/-- A decline of a step target of a PAGING call (R61, R62, R85): the crew joins the declined set once. A replacement
is chosen from the step pool, where there is one, while the targets are fewer than 8: it joins the step targets and
the paged set, and its pagers are paged. With none chosen the call is otherwise unchanged while a target is left that
has not declined, and else advances at once. A decline of a crew that is no step target, and one of a call that is not
PAGING, is noted only and changes nothing. -/
def Obligations.DeclinesAreRemembered : Prop :=
  (∀ (s : State) (c : Call) (crew : Nat), c.state ≠ .paging ∨ crew ∉ c.targets → s.ackDecline c crew = s) ∧
  ∀ (s : State) (c : Call) (crew : Nat) (noneChosen : Prop), s.findCall c.number = some c → c.state = .paging →
    crew ∈ c.targets →
    (noneChosen ↔ c.stepPool = none ∨ 8 ≤ c.targets.length ∨
      ∃ p, c.stepPool = some p ∧ (s.chooseOne p c.targets (c.declined ++ [crew])).1 = none) →
    (crew ∈ c.declined → s.ackDecline c crew = s) ∧
    (crew ∉ c.declined → noneChosen → (∃ k ∈ c.targets, k ≠ crew ∧ k ∉ c.declined) →
      (s.ackDecline c crew).findCall c.number = some { c with declined := c.declined ++ [crew] } ∧
      .call c.number ∈ (s.ackDecline c crew).link.notices ∧
      (s.ackDecline c crew).sched = s.sched ∧ (s.ackDecline c crew).line = s.line ∧
      (s.ackDecline c crew).registry = s.registry ∧ EngineFrame (fun m => m = c.number) s (s.ackDecline c crew)) ∧
    (crew ∉ c.declined → noneChosen → (∀ k ∈ c.targets, k = crew ∨ k ∈ c.declined) →
      (s.ladder c.ladder).inRange = true →
      ∃ c', (s.ackDecline c crew).findCall c.number = some c' ∧
        s.AdvancesTo (s.ackDecline c crew) { c with declined := c.declined ++ [crew] } c' ∧
        .call c.number ∈ (s.ackDecline c crew).link.notices ∧
        EngineFrame (fun m => m = c.number) s (s.ackDecline c crew)) ∧
    (crew ∉ c.declined → ∀ p x t, c.stepPool = some p → c.targets.length < 8 →
      s.chooseOne p c.targets (c.declined ++ [crew]) = (some x, t) →
      ∃ c', (s.ackDecline c crew).findCall c.number = some c' ∧
        c'.core = { c with
          declined := c.declined ++ [crew]
          targets := c.targets ++ [x]
          paged := addToSet c.paged x }.core ∧
        .call c.number ∈ (s.ackDecline c crew).link.notices ∧
        s.HandsOver (s.ackDecline c crew) c.number c.forceWide (s.pagesFor c [x]) ∧
        (s.ackDecline c crew).registry = t.registry ∧
        EngineFrame (fun m => m = c.number) s (s.ackDecline c crew))

/-- LIST_ACKS, QUERY_CALL, LIST_CALLS, QUERY_QUEUE, QUERY_STATION, QUERY_BEACONS and QUERY_PART (R22, R23, R78, R113,
R151, R160, R187): the records as they stand, or the refusal; nothing else. That the group fields R113 reports as 0
for an undefined station take in its channel group is the model's reading (entry 16). The layouts of the notices, with
the two response times of R3, of the blocks and codes that this and other statements name (R191, R192, R189), and of
an item as a BURST carries it (R193), character by character: that a bit R192 does not name is 0 is the model's choice
(entry 33), and the characters of a RELEASED output and of an absent load result are free (entry 14). -/
def Obligations.QueriesReport : Prop :=
  (let one := fun (n : Nat) => (BitVec.ofNat 8 n : Byte)
   let two := fun (n : Nat) => [one (n / 256), one n]
   let tick := fun (x : Tick) => [one (x.toNat / 65536), one (x.toNat / 256), one x.toNat]
   let opt := fun (x : Option Tick) => match x with | none => [0#8, 0#8, 0#8] | some y => tick y
   let ref := fun (x : Option Nat) => match x with | none => 0#8 | some y => one y
   let bit := fun (b : Bool) (k : Nat) => if b then 2 ^ k else 0
   (∀ c : Call, callNotice c =
     two c.number ++ [one c.state.code, one (reasonCode c.reason)] ++
       (match c.source with
         | .plantComputer => [0#8, 0#8, 0#8]
         | .callPoint st i => [1#8, one st, one i]) ++
       [one c.origin, one c.cls.rank, one c.ladder, ref c.preferred, one c.stepIndex,
         one (bit c.directed 0 + bit c.referred 1 + bit c.forceWide 2), one c.restarts] ++
       tick c.stepStart ++ two c.window ++ two c.interval ++ [one c.repeats, one c.attempts, ref c.stepPool] ++
       opt c.stepDeadline ++ opt c.nextRepeat ++ opt c.arrivalDeadline ++ tick c.raiseTick ++
       opt c.acceptTick ++ opt c.onSceneTick ++ opt c.closeTick ++
       (match c.acceptTick with | none => [0#8, 0#8, 0#8] | some a => tick (a - c.raiseTick)) ++
       (match c.acceptTick, c.onSceneTick with
         | some a, some o => tick (o - a)
         | _, _ => [0#8, 0#8, 0#8]) ++
       [ref c.accepting, ref c.heldBeacon, one c.presses,
         one (bit c.stepDeadline.isSome 0 + bit c.nextRepeat.isSome 1 + bit c.arrivalDeadline.isSome 2 +
           bit c.acceptTick.isSome 3 + bit c.onSceneTick.isSome 4 + bit c.closeTick.isSome 5)] ++
       (one c.targets.length :: c.targets.map one) ++ (one c.declined.length :: c.declined.map one) ++
       (one c.paged.length :: c.paged.map one) ++ (one c.text.length :: c.text)) ∧
   (∀ (n : Nat) (c : Crew), crewNotice n c =
     [one n, if c.defined then 1#8 else 0#8, if c.duty = .onDuty then 1#8 else 0#8,
       if c.accepted ≠ [] then 2#8 else if c.duty = .onDuty then 1#8 else 0#8, one c.home] ++
       (one c.name.length :: c.name) ++ (one c.members.length :: c.members.flatMap two) ++
       (one c.accepted.length :: c.accepted.flatMap two)) ∧
   (∀ (n : Nat) (x : Station), stationNotice n x =
     [one n, if x.defined then 1#8 else 0#8, one x.group, one x.setting.code, one x.service.code, one x.misses,
       x.mark, if x.resync then 1#8 else 0#8, if x.due.isSome then 1#8 else 0#8] ++ opt x.due ++
       (one x.neighbours.length :: x.neighbours.map one)) ∧
   (∀ s : State, s.partNotice = [one s.link.state.code, one s.store.state.code, one s.store.lastResult.code,
     match s.store.loadResult with
       | none => Config.noLoadResultCode
       | some .ok => 0#8
       | some .blank => 1#8
       | some .badCheck => 2#8, one s.store.cause.code]) ∧
   (∀ (now : Tick) (b : Beacon), beaconBlock now b =
     [if b.idle = .low then 0#8 else 1#8, if b.hold.isSome then 1#8 else 0#8,
       match b.hold with | none => 0#8 | some k => one k.rank] ++
       (one b.holders.length :: b.holders.flatMap two) ++
       (match b.driving with
         | none => [0#8, 0#8, 0#8, 0#8, 0#8]
         | some d => [1#8, one d.cls.rank, one d.period, one d.onTime, one (now - d.start).toNat]) ++
       [match b.output with | .low => 0#8 | .high => 1#8 | .released => Config.releasedCode]) ∧
   (∀ i : Item, itemSummary i =
     two i.pager ++ two i.call ++ [one i.kind.code, one i.cls.rank, one i.attempt]) ∧
   (∀ i : Item, burstItem i =
     two i.pager ++ two i.call ++ [one i.kind.code, one i.cls.rank, one i.attempt, one i.text.length] ++ i.text) ∧
   (∀ p : Params, paramsReply p =
     [one p.factor.routine, one p.factor.urgent, one p.factor.hazard, one p.factor.emergency] ++
       two p.freshness ++ [one p.dedupe] ++ two p.silence ++
       [one p.pollPeriod, one p.airtimeLimit, one p.stayLimit, one p.missLimit,
         one p.pattern.routine.period, one p.pattern.routine.onTime,
         one p.pattern.urgent.period, one p.pattern.urgent.onTime,
         one p.pattern.hazard.period, one p.pattern.hazard.onTime,
         one p.pattern.emergency.period, one p.pattern.emergency.onTime,
         one (p.rate / 65536), one (p.rate / 256), one p.rate]) ∧
   ([Result.ok, .unknownRequest, .badLength, .badValue, .noSuchCall, .callClosed, .noSuchEntry, .bookFull,
       .tableFull, .pagerInUse, .storeBusy, .wrongState].map Result.code = [0, 1, 2, 3, 4, 5, 6, 7, 8, 9, 10, 11] ∧
     [Cls.routine, .urgent, .hazard, .emergency].map Cls.rank = [0, 1, 2, 3] ∧
     [CallState.paging, .accepted, .onScene, .exhausted, .closed].map CallState.code = [0, 1, 2, 3, 4] ∧
     [none, some CloseReason.cleared, some .cancelled, some .doneByCrew].map reasonCode = [0, 1, 2, 3] ∧
     [AckKind.accept, .decline, .onScene, .done].map AckKind.code = [0, 1, 2, 3] ∧
     [ItemKind.page, .repage, .standDown, .closeNote].map ItemKind.code = [0, 1, 2, 3] ∧
     [Phase.none, .granted, .inFlight, .onAir].map Phase.code = [0, 1, 2, 3] ∧
     [Service.inService, .suspect, .silent, .outOfService].map Service.code = [0, 1, 2, 3] ∧
     [LinkState.starting, .online, .local].map LinkState.code = [0, 1, 2] ∧
     [StoreState.idle, .saving].map StoreState.code = [0, 1] ∧
     [StoreResult.none, .ok, .failed].map StoreResult.code = [0, 1, 2] ∧
     [Cause.powerOn, .resetLine, .request].map Cause.code = [0, 1, 2])) ∧
  (∀ (s : State) (tag hi lo : Byte), s.TakesRequests →
     (hi.toNat * 256 + lo.toNat = 0 → exec (.queryCall tag [hi, lo]) s =
       .next (s.heard.replying 0x84#8 tag .badValue [])) ∧
     (hi.toNat * 256 + lo.toNat ≠ 0 → s.findCall (hi.toNat * 256 + lo.toNat) = none →
       exec (.queryCall tag [hi, lo]) s = .next (s.heard.replying 0x84#8 tag .noSuchCall [])) ∧
     (∀ c, hi.toNat * 256 + lo.toNat ≠ 0 → s.findCall (hi.toNat * 256 + lo.toNat) = some c →
       exec (.queryCall tag [hi, lo]) s = .next (s.heard.replying 0x84#8 tag .ok (callNotice c))) ∧
     (∀ cs, cs = s.book.calls.filter (fun c => decide (c.state ≠ .closed)) ++
         s.book.closedOrder.filterMap s.findCall →
       exec (.listCalls tag []) s = .next (s.heard.replying 0x85#8 tag .ok
         (BitVec.ofNat 8 cs.length :: cs.flatMap (fun c =>
           [BitVec.ofNat 8 (c.number / 256), BitVec.ofNat 8 c.number, BitVec.ofNat 8 c.state.code,
             BitVec.ofNat 8 c.cls.rank, BitVec.ofNat 8 c.stepIndex, BitVec.ofNat 8 (reasonCode c.reason)])))) ∧
     exec (.listAcks tag []) s = .next (s.heard.replying 0x90#8 tag .ok
       (enc3 s.clock.toNat ++ enc2 (s.store.params.dedupe * 8) ++ [BitVec.ofNat 8 s.acks.length] ++
         s.acks.flatMap (fun e =>
           [BitVec.ofNat 8 (e.pager / 256), BitVec.ofNat 8 e.pager, BitVec.ofNat 8 (e.call / 256),
             BitVec.ofNat 8 e.call, BitVec.ofNat 8 e.kind.code] ++ enc3 e.heard.toNat ++
             [BitVec.ofNat 8 e.station])))) ∧
  (∀ (s : State) (tag n : Byte), s.TakesRequests →
     (¬ (1 ≤ n.toNat ∧ n.toNat ≤ 12) →
       exec (.queryQueue tag [n]) s = .next (s.heard.replying 0x91#8 tag .badValue []) ∧
       exec (.queryStation tag [n]) s = .next (s.heard.replying 0x93#8 tag .badValue [])) ∧
     (1 ≤ n.toNat → n.toNat ≤ 12 →
       exec (.queryStation tag [n]) s = .next (s.heard.replying 0x93#8 tag .ok
         (stationNotice n.toNat (s.station n.toNat) ++
           [if n.toNat ∈ s.line.followUps then 1#8 else 0#8,
             match s.line.exchange with
             | none => 0#8
             | some x => if x.station = n.toNat then (if x.kind = .poll then 1#8 else 2#8) else 0#8] ++
           enc3 s.clock.toNat))) ∧
     (1 ≤ n.toNat → n.toNat ≤ 12 → (s.station n.toNat).defined = true →
       exec (.queryQueue tag [n]) s = .next (s.heard.replying 0x91#8 tag .ok
         ([BitVec.ofNat 8 (s.queue n.toNat).count, BitVec.ofNat 8 (s.station n.toNat).group,
             BitVec.ofNat 8 (s.queue n.toNat).phase.code, if (s.queue n.toNat).waitIdle then 1#8 else 0#8,
             BitVec.ofNat 8 (s.queue n.toNat).waiting.length] ++
           (s.queue n.toNat).returned.flatMap (fun i => itemSummary i ++ [1#8]) ++
           (s.queue n.toNat).ordered.flatMap (fun i => itemSummary i ++ [0#8]) ++
           (match (s.queue n.toNat).flight with
             | none => [0#8, 0#8, 0#8]
             | some b => [1#8, b.id, BitVec.ofNat 8 b.items.length] ++ b.items.flatMap itemSummary) ++
           [BitVec.ofNat 8 ((s.group (s.station n.toNat).group).holder.getD 0),
             BitVec.ofNat 8 (s.group (s.station n.toNat).group).last,
             BitVec.ofNat 8 (s.group (s.station n.toNat).group).consecutive]))) ∧
     (1 ≤ n.toNat → n.toNat ≤ 12 → (s.station n.toNat).defined = false →
       exec (.queryQueue tag [n]) s = .next (s.heard.replying 0x91#8 tag .ok
         [0#8, 0#8, 0#8, 0#8, 0#8, 0#8, 0#8, 0#8, 0#8, 0#8, 0#8])) ∧
     exec (.queryBeacons tag []) s = .next (s.heard.replying 0x95#8 tag .ok
       (enc3 s.clock.toNat ++ (List.range' 1 8).flatMap (fun z => beaconBlock s.clock (s.beacon z)))) ∧
     exec (.queryPart tag []) s = .next (s.heard.replying 0x99#8 tag .ok
       ([1#8, BitVec.ofNat 8 s.store.state.code, BitVec.ofNat 8 s.store.lastResult.code,
           loadResultChar s.store.loadResult, BitVec.ofNat 8 s.store.cause.code] ++
         paramsReply s.store.params ++ enc3 s.link.rateInUse ++ enc3 s.clock.toNat)))

/-! ### Page queues and the air -/

/-- The placing of a copy in a station's queue (R109 to R111), case by case: merged with an equal waiting item; put in
after its own class and higher; or, at a count of 24, in place of a tail of lower class, or not at all. Placing it at
a station puts that queue in its place, sets the force-wide flag of the call of a PAGE or REPAGE so lost, and lets the
arbiter of the station's group act (R111, R116). An item handed over places a copy at each chosen station and at no
other, the loss of any of which widens its call (R104, R106); where none is chosen a PAGE or REPAGE widens its own
call and a note is dropped (R105). That the arbiter acts after each single copy, the copies of an item being
placed in ascending station number, so that a grant can fall between two copies of one item, is the model's reading of
R111 and R116 (entry 7), which do not say it. -/
def Obligations.PlacingKeepsTheOrder : Prop :=
  (∀ (s : State) (i : Item) (st : Nat), 1 ≤ st → st ≤ 12 →
    ∃ u, State.place i st s = u.arbitrate (s.station st).group ∧
      u.queue st = ((s.queue st).accept i).1 ∧ (∀ k, k ≠ st → u.queue k = s.queue k) ∧
      s.WidensOnly u (lostPageOf ((s.queue st).accept i).2.toList) ∧
      u = { s with
        book := { s.book with calls := u.book.calls }
        sched := { s.sched with queues := u.sched.queues }
        link := { s.link with notices := u.link.notices } }) ∧
  (∀ (s : State) (i : Item),
    (s.chooseStations i = [] → (i.kind = .page ∨ i.kind = .repage) →
      ∃ t, State.produce i s = t ∧ s.WidensOnly t (fun c => decide (c.number = i.call)) ∧
        t = { s with
          book := { s.book with calls := t.book.calls }, link := { s.link with notices := t.link.notices } }) ∧
    (s.chooseStations i = [] → (i.kind = .standDown ∨ i.kind = .closeNote) → State.produce i s = s) ∧
    (s.chooseStations i ≠ [] →
      ∃ t, State.produce i s = t ∧ t = forEach (s.chooseStations i) (State.place i) s ∧
        (∀ st ∈ s.chooseStations i,
          t.queue st = { ((s.queue st).accept i).1 with phase := (t.queue st).phase }) ∧
        (∀ st, st ∉ s.chooseStations i → t.queue st = { s.queue st with phase := (t.queue st).phase }) ∧
        s.WidensOnly t (fun c =>
          (s.chooseStations i).any (fun st => lostPageOf ((s.queue st).accept i).2.toList c)) ∧
        t = { s with
          book := { s.book with calls := t.book.calls }
          sched := { s.sched with queues := t.sched.queues, groups := t.sched.groups }
          line := { s.line with burstWaits := t.line.burstWaits }
          link := { s.link with notices := t.link.notices } })) ∧
  ∀ (q : StationQueue) (i : Item),
    ((∃ w ∈ q.waiting, w.pager = i.pager ∧ w.call = i.call ∧ w.kind = i.kind) →
      let merged := fun (w : Item) => if w.pager = i.pager ∧ w.call = i.call ∧ w.kind = i.kind then
        { w with text := i.text, attempt := i.attempt } else w
      (q.accept i).2 = none ∧
        (q.accept i).1 = { q with returned := q.returned.map merged, ordered := q.ordered.map merged }) ∧
    ((∀ w ∈ q.waiting, ¬ (w.pager = i.pager ∧ w.call = i.call ∧ w.kind = i.kind)) → q.count < 24 →
      ∃ before after, q.ordered = before ++ after ∧ (q.accept i).2 = none ∧
        (q.accept i).1 = { q with ordered := before ++ i :: after } ∧
        (∀ w ∈ before, i.cls.rank ≤ w.cls.rank) ∧ ∀ w ∈ after.head?, w.cls.rank < i.cls.rank) ∧
    ((∀ w ∈ q.waiting, ¬ (w.pager = i.pager ∧ w.call = i.call ∧ w.kind = i.kind)) → 24 ≤ q.count →
      ∀ rest tail, q.ordered = rest ++ [tail] →
        (tail.cls.rank < i.cls.rank →
          ∃ before after, rest = before ++ after ∧ (q.accept i).2 = some tail ∧
            (q.accept i).1 = { q with ordered := before ++ i :: after } ∧
            (∀ w ∈ before, i.cls.rank ≤ w.cls.rank) ∧ ∀ w ∈ after.head?, w.cls.rank < i.cls.rank) ∧
        (i.cls.rank ≤ tail.cls.rank → q.accept i = (q, some i)))

/-- The arbiter of a group (R115, R116): a held grant stays; a free one goes to the last granted station while
its consecutive grants are below the stay limit, else to the next other station that qualifies with count 1, else
to the last granted one with the count at the limit; with none qualifying it stays free. -/
def Obligations.ArbiterGrantsByTheStayLimit : Prop :=
  ∀ (s : State) (g : Nat), 1 ≤ g → g ≤ 4 → (s.group g).last ≤ 12 →
    let l := (s.group g).last
    let fits := fun (st : Nat) => (s.station st).defined = true ∧ (s.station st).group = g ∧
      ((s.station st).service = .inService ∨ (s.station st).service = .suspect) ∧
      (s.queue st).waiting ≠ [] ∧ (s.queue st).waitIdle = false
    let gives := fun (st n : Nat) => ∃ t, s.arbitrate g = t ∧
      t.group g = { s.group g with holder := some st, last := st, consecutive := n } ∧
      t.queue st = { s.queue st with phase := .granted } ∧
      t.line.burstWaits = s.line.burstWaits ++ [st] ∧
      (∀ k, k ≠ g → t.group k = s.group k) ∧ (∀ k, k ≠ st → t.queue k = s.queue k) ∧
      t = { s with sched := t.sched, line := { s.line with burstWaits := t.line.burstWaits } }
    ((s.group g).holder ≠ none → s.arbitrate g = s) ∧
    ((s.group g).holder = none →
      (fits l → (s.group g).consecutive < s.store.params.stayLimit → gives l ((s.group g).consecutive + 1)) ∧
      (¬ (fits l ∧ (s.group g).consecutive < s.store.params.stayLimit) →
        (∀ d, 1 ≤ d → d ≤ 12 → fits ((l + d - 1) % 12 + 1) → (l + d - 1) % 12 + 1 ≠ l →
          (∀ e, 1 ≤ e → e < d → ¬ fits ((l + e - 1) % 12 + 1)) → gives ((l + d - 1) % 12 + 1) 1) ∧
        (fits l → (∀ st, st ≠ l → ¬ fits st) → gives l s.store.params.stayLimit)) ∧
      ((∀ st, ¬ fits st) → s.arbitrate g = s))

/-- BURST_EXCHANGE_BEGIN (R117, R131, R135, R136): on a free line the earliest granted station's burst is formed of
the first six items of its queue with the next burst id, and sent, SDEN being asserted from one character time ahead
of the command to its end; a station with nothing waiting gives up its grant and no exchange begins. The command of an
exchange, a BURST or a POLL, stands on STXD without gaps, 11 bit times a character, from one character time after SDEN
was asserted (R130, R131); that STXD is at the mark level otherwise is the family's (entry 37). -/
def Obligations.BurstsAreFormedAndSent : Prop :=
  (∀ (s : State) (k : Nat), (s.line.exchange = none → s.stxd k = .mark) ∧
    ∀ x, s.line.exchange = some x → (k < 11 ∨ 11 * (x.command.length + 1) ≤ k → s.stxd k = .mark) ∧
      ∀ j c i, x.command[j]? = some c → i < 11 → (lineBits c)[i]? = some (s.stxd (11 * (j + 1) + i))) ∧
  ∀ (s : State) (st : Nat) (ws : List Nat), 1 ≤ st → st ≤ 12 → s.line.exchange = none →
    s.line.burstWaits = st :: ws →
    ((s.queue st).waiting ≠ [] →
      ∃ (t : State) (items : List Item), exec .burstExchangeBegin s = .next t ∧
        items = (s.queue st).waiting.take 6 ∧
        (t.queue st).waiting = (s.queue st).waiting.drop 6 ∧
        (t.queue st).flight = some ⟨s.sched.burstId, items⟩ ∧ (t.queue st).phase = .inFlight ∧
        (t.queue st).waitIdle = (s.queue st).waitIdle ∧
        (∀ k, k ≠ st → t.queue k = s.queue k) ∧ t.sched.burstId = s.sched.burstId + 1#8 ∧
        t.sched.groups = s.sched.groups ∧
        t.line = { s.line with
          burstWaits := (st :: ws).filter (fun k => decide (k ≠ st))
          exchange := some
            { kind := .burst, station := st, burstId := s.sched.burstId, resync := false
              command := commandChars 2 st ([s.sched.burstId, BitVec.ofNat 8 items.length] ++
                items.flatMap burstItem)
              void := false, detached := false } } ∧
        (∀ e k, t.line.exchange = some e → t.sden k = decide (k ≤ e.command.length)) ∧
        t = { s with sched := t.sched, line := t.line }) ∧
    ((s.queue st).waiting = [] → (s.group (s.station st).group).holder = some st →
      1 ≤ (s.station st).group → (s.station st).group ≤ 4 →
      ∃ t : State, exec .burstExchangeBegin s = .next t ∧ t.line.exchange = none ∧ (∀ k, t.sden k = false) ∧
        (t.queue st).phase = .none ∧ (t.queue st).waiting = [] ∧ (t.queue st).waitIdle = (s.queue st).waitIdle ∧
        (t.group (s.station st).group).holder ≠ some st ∧ t.sched.burstId = s.sched.burstId ∧
        t = { s with sched := t.sched, line := { s.line with burstWaits := t.line.burstWaits } })

/-- AIRTIME_DEADLINE_EXPIRY (R122, R123, R140): the grant is released with the wait-for-idle mark set, and a miss is
recorded: SUSPECT, or SILENT at the miss limit with the queue flushed, which widens the open call of every page lost,
and an exchange of the station on the line void (R137).
That the group's holder is then not this station rests on the model's reading that the mark is set before the arbiter
acts (entry 8). -/
def Obligations.AirtimeLimitEndsTheGrant : Prop :=
  ∀ (s : State) (st g : Nat) (d : Tick), 1 ≤ st → st ≤ 12 → (s.station st).group = g → 1 ≤ g → g ≤ 4 →
    (s.queue st).phase = .onAir → (s.group g).holder = some st → (s.group g).deadline = some d →
    (s.clock - d).toNat < 8388608 →
    ((s.station st).service = .inService ∨ (s.station st).service = .suspect) →
    ∃ t : State, exec (.airtimeDeadlineExpiry st) s = .next t.sendReady ∧ (t.group g).holder ≠ some st ∧
      (t.group g).deadline = none ∧ (t.queue st).phase = .none ∧
      (t.station st).misses = (s.station st).misses + 1 ∧ .station st ∈ t.link.notices ∧
      ((s.station st).misses + 1 < s.store.params.missLimit →
        (t.station st).service = .suspect ∧ (t.queue st).waitIdle = true ∧
        (t.queue st).waiting = (s.queue st).waiting ∧ t.book = s.book ∧ t.line.exchange = s.line.exchange) ∧
      (s.store.params.missLimit ≤ (s.station st).misses + 1 →
        t.line.exchange = s.line.exchange.map (fun x => if x.station = st then { x with void := true } else x) ∧
        s.Flushes t (s.heldAt st) ∧ (t.station st).service = .silent ∧ (t.station st).resync = true ∧
        t.queue st = .empty ∧
        (t.station st).due = some (s.clock + BitVec.ofNat 24 (8 * s.store.params.pollPeriod)) ∧
        st ∉ t.line.followUps) ∧
      (∀ k, k ≠ st → t.station k = s.station k) ∧ t.clock = s.clock ∧ t.registry = s.registry ∧
      t.store = s.store ∧ t.acks = s.acks ∧
      (∀ m, (t.findCall m).map Call.core = (s.findCall m).map Call.core)

/-! ### The station line -/

/-- POLL_DUE and POLL_EXCHANGE_BEGIN (R131, R134, R136, R141, R142, R144): a due poll waits at the line; on a line
free of BURSTs the first follow-up is polled, or else the station whose due tick was reached earliest, the lowest
number among equals; the poll carries RESYNC while that is pending, its due tick is cleared, and SDEN is asserted from
one character time ahead of the command to its end. That a due poll waits from its POLL_DUE on, held as the flag
`pollWaits`, and that the earliest is sought among the stations so flagged, is the model's reading (entry 9); that the
POLL flags which R193 does not name are sent as 0 is the model's choice (entry 32). -/
def Obligations.PollsBeginInTheirOrder : Prop :=
  (∀ (s : State) (st : Nat) (d : Tick), 1 ≤ st → st ≤ 12 → (s.station st).due = some d →
    (s.clock - d).toNat < 8388608 →
    ∃ t, exec (.pollDue st) s = .next t ∧ t.station st = { s.station st with pollWaits := true } ∧
      (∀ k, k ≠ st → t.station k = s.station k) ∧
      t = { s with line := { s.line with stations := t.line.stations } }) ∧
  ∀ (s : State) (st : Nat), 1 ≤ st → st ≤ 12 → s.line.exchange = none → s.line.burstWaits = [] →
    ((∃ fs, s.line.followUps = st :: fs) ∨
      s.line.followUps = [] ∧ ∃ d, (s.station st).due = some d ∧ (s.station st).pollWaits = true ∧
        (∀ k e, 1 ≤ k → k ≤ 12 → (s.station k).due = some e → (s.station k).pollWaits = true →
          (s.clock - e).toNat ≤ (s.clock - d).toNat) ∧
        (∀ k e, 1 ≤ k → k < st → (s.station k).due = some e → (s.station k).pollWaits = true →
          (s.clock - e).toNat < (s.clock - d).toNat)) →
    ∃ t, exec .pollExchangeBegin s = .next t ∧
      t.station st = { s.station st with due := none, pollWaits := false } ∧
      (∀ k, k ≠ st → t.station k = s.station k) ∧
      t.line.followUps = s.line.followUps.filter (fun k => decide (k ≠ st)) ∧
      t.line.exchange = some
        { kind := .poll, station := st, burstId := 0#8, resync := (s.station st).resync
          command := commandChars 1 st [if (s.station st).resync then 1#8 else 0#8, (s.station st).mark]
          void := false, detached := false } ∧
      (∀ e k, t.line.exchange = some e → t.sden k = decide (k ≤ e.command.length)) ∧
      t = { s with line := { s.line with
        stations := t.line.stations, followUps := t.line.followUps, exchange := t.line.exchange } }

/-- A poll reply on the line is read as what it says (R133, R192, R193, R194): its state bits, its newest sequence and
each of its records, whatever the status bits and the characters of a PRESS that are disregarded; and a burst reply as
TAKEN or REFUSED. A complete reply is read as none where its first character is no address character or a later one
is; where its station or kind is not that of the exchange; where its check does not agree; where a burst reply has
another burst id or an outcome above 1; and where a record has a type above 1, a pager outside 1..4095, an ACK kind
above 3, a quality above 15 or an input outside 1..4. The first characters of a reply show it malformed or how long it
is: where the first is no address character, or of another kind, or counts more than 8 records; else it is complete at
its length, and what follows is left out (R130, R132). Below that, a character is a start bit, nine data bits and a
stop bit, 11 bit times in all (R130), in the family's bit order and levels (entries 35 and 37); a run of them is read
back from its levels, and a reply acts as the levels of its characters do. A message is its address character, its
contents and the check over the 8 data bits of each (R188, R193). -/
def Obligations.RepliesAreReadAsSent : Prop :=
  (∀ (x : Exchange) (status newest : Byte) (rs : List (FloorRecord × List Byte)) (recs : List Byte),
    x.kind = .poll → 1 ≤ x.station → x.station ≤ 12 → rs.length ≤ 8 →
    recs = rs.flatMap (fun r => match r.1 with
      | .ack q a => [q, 0#8] ++ enc2 a.pager ++ enc2 a.call ++
          [BitVec.ofNat 8 a.kind.code, BitVec.ofNat 8 a.quality, BitVec.ofNat 8 a.age]
      | .press q input => [q, 1#8, BitVec.ofNat 8 input] ++ r.2) →
    (∀ r ∈ rs, match r.1 with
      | .ack _ a => 1 ≤ a.pager ∧ a.pager ≤ 4095 ∧ a.call < 65536 ∧ a.quality ≤ 15 ∧ a.age < 256
      | .press _ input => 1 ≤ input ∧ input ≤ 4 ∧ r.2.length = 6) →
    let cs := commandChars 9 x.station ([status, newest, BitVec.ofNat 8 rs.length] ++ recs)
    replyShape cs = .complete cs ∧
      readReply x cs = some (.poll (status.getLsbD 0) (status.getLsbD 1) newest (rs.map Prod.fst))) ∧
  (∀ (x : Exchange) (taken : Bool), x.kind = .burst → 1 ≤ x.station → x.station ≤ 12 →
    let cs := commandChars 10 x.station [x.burstId, if taken then 0#8 else 1#8]
    replyShape cs = .complete cs ∧ readReply x cs = some (.burst taken)) ∧
  (∀ (x : Exchange) (a : Char9) (rest : List Char9),
    a.toNat < 256 ∨ (∃ c ∈ rest, 256 ≤ c.toNat) ∨ a.toNat % 16 ≠ x.station ∨
      a.toNat / 16 % 16 ≠ (if x.kind = .poll then 9 else 10) → readReply x (a :: rest) = none) ∧
  (∀ (x : Exchange) (a : Char9) (contents : List Byte) (check : BitVec 16),
    check ≠ crc (dataBits a :: contents) →
    readReply x (a :: (contents ++ encCheck check).map dataChar) = none) ∧
  (∀ (x : Exchange) (id outcome : Byte), x.kind = .burst → id ≠ x.burstId ∨ 1 < outcome.toNat →
    readReply x (commandChars 10 x.station [id, outcome]) = none) ∧
  (∀ (x : Exchange) (status newest count q type a b c d e f g : Byte) (before after : List Byte), x.kind = .poll →
    before.length % 9 = 0 →
    1 < type.toNat ∨
      type = 0#8 ∧ (a.toNat * 256 + b.toNat = 0 ∨ 4095 < a.toNat * 256 + b.toNat ∨ 3 < e.toNat ∨ 15 < f.toNat) ∨
      type = 1#8 ∧ (a.toNat = 0 ∨ 4 < a.toNat) →
    readReply x (commandChars 9 x.station
      ([status, newest, count] ++ before ++ [q, type, a, b, c, d, e, f, g] ++ after)) = none) ∧
  replyShape [] = .incomplete ∧
  (∀ (a : Char9) (rest : List Char9),
    let kind := a.toNat / 16 % 16
    (a.toNat < 256 ∨ kind ≠ 9 ∧ kind ≠ 10 ∨ kind = 9 ∧ (∃ n, rest[2]? = some n ∧ 8 < n.toNat % 256) →
      replyShape (a :: rest) = .malformed) ∧
    (256 ≤ a.toNat → kind = 10 → replyShape (a :: rest) =
      if rest.length < 4 then .incomplete else .complete (a :: rest.take 4)) ∧
    (256 ≤ a.toNat → kind = 9 → rest[2]? = none → replyShape (a :: rest) = .incomplete) ∧
    ∀ n, 256 ≤ a.toNat → kind = 9 → rest[2]? = some n → n.toNat % 256 ≤ 8 → replyShape (a :: rest) =
      if rest.length < 5 + 9 * (n.toNat % 256) then .incomplete
      else .complete (a :: rest.take (5 + 9 * (n.toNat % 256)))) ∧
  (∀ c : Char9, (lineBits c).length = 11 ∧ (lineBits c)[0]? = some .space ∧ (lineBits c)[10]? = some .mark ∧
    ∀ i, i < 9 → (lineBits c)[1 + i]? = some (if c.getLsbD i then .mark else .space)) ∧
  (∀ cs : List (Nat × Char9),
    readSrxd .idle (cs.flatMap (fun x => List.replicate x.1 .mark ++ lineBits x.2)) = (cs.map Prod.snd, .idle)) ∧
  (∀ (s : State) (chars : List Char9),
    exec (.pollReply chars) s = .next (s.receiveLine (chars.flatMap lineBits)) ∧
    exec (.burstReply chars) s = .next (s.receiveLine (chars.flatMap lineBits))) ∧
  ∀ (kind station : Nat) (contents : List Byte), kind < 16 → station < 16 →
    commandChars kind station contents = BitVec.ofNat 9 (256 + 16 * kind + station) ::
      (contents ++ encCheck (crc (BitVec.ofNat 8 (16 * kind + station) :: contents))).map (BitVec.setWidth 9)

/-- POLL_REPLY of a station IN_SERVICE or SUSPECT (R134, R139, R141 to R144, R147): the line is free and the station
IN_SERVICE with miss count 0; then its records act in reply order, each whole before the next: after a POLL with
RESYNC every one is handed onward and the mark becomes the last one's sequence number, or the newest sequence where
there is none, and RESYNC is no longer pending; otherwise each is judged by the mark; then the follow-up list holds
the station if the more flag is set, and its poll is armed for P ticks on. From a SILENT station (R145), whatever its
records, which are not taken: it is IN_SERVICE with miss count 0, its mark and RESYNC as they were, and asked again at
once. A reply that shows the transmitter idle clears the wait-for-idle mark, ends the grant of an ON_AIR station, its
airtime deadline cleared, and has the arbiter of the group act (R116, R121). A reply to an exchange whose station has
left service meanwhile acts on nothing but the end of the exchange (R137, R146). -/
def Obligations.PollReplyIsAnAnswer : Prop :=
  (∀ (s : State) (x : Exchange) (chars : List Char9) (busy more : Bool) (newest : Byte) (rs : List FloorRecord),
     s.line.exchange = some x → x.void = true →
     replyShape chars = .complete chars → readReply x chars = some (.poll busy more newest rs) →
     exec (.pollReply chars) s = .next (State.sendReady { s with line := { s.line with exchange := none } })) ∧
  (∀ (s : State) (x : Exchange) (chars : List Char9) (busy more : Bool) (newest : Byte) (rs : List FloorRecord)
     (st g : Nat), g = (s.station st).group →
     s.line.exchange = some x → x.kind = .poll → x.station = st → 1 ≤ st → st ≤ 12 → x.void = false →
     replyShape chars = .complete chars → readReply x chars = some (.poll busy more newest rs) →
     ((s.station st).service = .inService ∨ (s.station st).service = .suspect) →
     ((s.queue st).phase = .onAir → (s.group g).holder = some st) →
     ∃ t u v : State, exec (.pollReply chars) s = .next t.sendReady ∧
       u.station st = { s.station st with service := .inService, misses := 0 } ∧
       (∀ k, k ≠ st → u.station k = s.station k) ∧ u.line.exchange = none ∧
       u.line.followUps = s.line.followUps ∧
       (busy = false → (u.queue st).waitIdle = false ∧ (u.queue st).phase ≠ .onAir) ∧
       (busy = true → (u.queue st).waitIdle = (s.queue st).waitIdle ∧
         ((s.queue st).phase = .onAir → (u.queue st).phase = .onAir)) ∧
       (busy = false → 1 ≤ g → g ≤ 4 → u.GrantSettled g ∧
         ((s.queue st).phase = .onAir → ∃ w : State, u = w.arbitrate g ∧
           w.group g = { s.group g with holder := none, deadline := none } ∧
           w.queue st = { s.queue st with phase := .none, waitIdle := false } ∧
           (∀ k, k ≠ g → w.group k = s.group k) ∧ (∀ k, k ≠ st → w.queue k = s.queue k) ∧
           w.sched.burstId = s.sched.burstId ∧
           w.line.burstWaits = s.line.burstWaits.filter (fun k => decide (k ≠ st)))) ∧
       ((s.station st).misses ≠ 0 ∨ (s.station st).service = .suspect → .station st ∈ u.link.notices) ∧
       u.book = s.book ∧ u.registry = s.registry ∧ u.acks = s.acks ∧ u.clock = s.clock ∧ u.store = s.store ∧
       v = forEach rs (if x.resync then State.handOnward st else State.judgeRecord st) u ∧
       t.station st = { s.station st with
         service := .inService, misses := 0, pollWaits := false
         due := some (s.clock + BitVec.ofNat 24 s.store.params.pollPeriod)
         mark := if x.resync then (match rs.getLast? with | none => newest | some r => r.seq)
           else (v.station st).mark
         resync := if x.resync then false else (s.station st).resync } ∧
       (∀ k, k ≠ st → t.station k = s.station k) ∧ t.line.exchange = none ∧
       t.line.followUps = (if more then addToSet s.line.followUps st else s.line.followUps) ∧
       t = { v with line := { v.line with stations := t.line.stations, followUps := t.line.followUps } }) ∧
  ∀ (s : State) (x : Exchange) (chars : List Char9) (busy more : Bool) (newest : Byte)
    (rs : List FloorRecord) (st : Nat),
    s.line.exchange = some x → x.kind = .poll → x.station = st → 1 ≤ st → st ≤ 12 → x.void = false →
    replyShape chars = .complete chars → readReply x chars = some (.poll busy more newest rs) →
    (s.station st).service = .silent →
    ∃ t : State, exec (.pollReply chars) s = .next t.sendReady ∧
      t.station st = { s.station st with
        service := .inService, misses := 0, pollWaits := false
        due := some (s.clock + BitVec.ofNat 24 s.store.params.pollPeriod) } ∧
      (∀ k, k ≠ st → t.station k = s.station k) ∧ t.line.exchange = none ∧
      t.line.followUps = addToSet s.line.followUps st ∧ .station st ∈ t.link.notices ∧
      (t.queue st).waitIdle = (busy && (s.queue st).waitIdle) ∧
      (1 ≤ (s.station st).group → (s.station st).group ≤ 4 → t.GrantSettled (s.station st).group) ∧
      t.book = s.book ∧ t.registry = s.registry ∧ t.acks = s.acks ∧ t.clock = s.clock ∧ t.store = s.store

/-- The judging of a floor record against the station's mark (R143): new exactly when its sequence number lies 1 to
127 after the mark, and then the mark becomes it; any other record is ignored, and so is a record judged a second
time. A record handed onward goes to the acknowledgement unit, or is a press at the call point of the delivering
station and the input (R147). -/
def Obligations.RecordsAreTakenOnce : Prop :=
  ∀ (s : State) (st : Nat) (r : FloorRecord), 1 ≤ st → st ≤ 12 →
    (∀ q a, State.handOnward st (.ack q a) s = s.takeAck st a) ∧
    (∀ q input, State.handOnward st (.press q input) s = s.press st input) ∧
    ((r.seq.toNat + 256 - (s.station st).mark.toNat) % 256 = 0 ∨
        128 ≤ (r.seq.toNat + 256 - (s.station st).mark.toNat) % 256 → State.judgeRecord st r s = s) ∧
    (1 ≤ (r.seq.toNat + 256 - (s.station st).mark.toNat) % 256 →
      (r.seq.toNat + 256 - (s.station st).mark.toNat) % 256 ≤ 127 →
      ∃ u, u.station st = { s.station st with mark := r.seq } ∧
        u = { s with line := { s.line with stations := u.line.stations } } ∧
        State.judgeRecord st r s = State.handOnward st r u ∧
        State.judgeRecord st r (State.judgeRecord st r s) = State.judgeRecord st r s)

/-- BURST_REPLY of a sound exchange (R118, R119, R135, R139): TAKEN leaves the items sent, the station ON_AIR and its
airtime deadline armed; REFUSED releases the grant, sets the wait-for-idle mark and returns the items that still ask
for something to the head of the queue. That the group's holder is then not this station rests on the model's reading
that the mark is set before the arbiter acts (entry 8). The reply of a station whose channel group changed meanwhile,
TAKEN or REFUSED, is an answer and no more (R137): IN_SERVICE with miss count 0, posted where that is a change, the
group's arbiter then acting; the queue and the grant stay. A reply to an exchange whose station has left service
meanwhile acts on nothing but the end of the exchange (R137). -/
def Obligations.BurstReplySettlesTheBurst : Prop :=
  (∀ (s : State) (x : Exchange) (chars : List Char9) (taken : Bool),
    s.line.exchange = some x → x.void = true →
    replyShape chars = .complete chars → readReply x chars = some (.burst taken) →
    exec (.burstReply chars) s = .next (State.sendReady { s with line := { s.line with exchange := none } })) ∧
  (∀ (s : State) (x : Exchange) (chars : List Char9) (taken : Bool) (st : Nat),
    s.line.exchange = some x → x.kind = .burst → x.station = st → 1 ≤ st → st ≤ 12 → x.void = false →
    x.detached = true → replyShape chars = .complete chars → readReply x chars = some (.burst taken) →
    ((s.station st).service = .inService ∨ (s.station st).service = .suspect) →
    ((s.station st).service = .inService → (s.station st).misses = 0 →
      exec (.burstReply chars) s = .next (State.sendReady { s with line := { s.line with exchange := none } })) ∧
    (¬ ((s.station st).service = .inService ∧ (s.station st).misses = 0) →
      ∃ u : State, exec (.burstReply chars) s = .next (u.arbitrate (s.station st).group).sendReady ∧
        u.station st = { s.station st with service := .inService, misses := 0 } ∧
        (∀ k, k ≠ st → u.station k = s.station k) ∧
        u = { s.withNotice (.station st) with
          line := { s.line with stations := u.line.stations, exchange := none } })) ∧
  ∀ (s : State) (x : Exchange) (chars : List Char9) (taken : Bool) (st g : Nat) (b : Burst),
    s.line.exchange = some x → x.kind = .burst → x.station = st → 1 ≤ st → st ≤ 12 → x.void = false →
    x.detached = false → replyShape chars = .complete chars → readReply x chars = some (.burst taken) →
    ((s.station st).service = .inService ∨ (s.station st).service = .suspect) →
    (s.station st).group = g → 1 ≤ g → g ≤ 4 → (s.group g).holder = some st →
    (s.queue st).flight = some b →
    ∃ t : State, exec (.burstReply chars) s = .next t.sendReady ∧ t.line.exchange = none ∧
      t.station st = { s.station st with service := .inService, misses := 0 } ∧
      (t.queue st).flight = none ∧
      (taken = true → t.queue st = { s.queue st with flight := none, phase := .onAir } ∧
        t.group g = { s.group g with
          deadline := some (s.clock + BitVec.ofNat 24 s.store.params.airtimeLimit) }) ∧
      (taken = false → (t.queue st).phase = .none ∧ (t.queue st).waitIdle = true ∧
        (t.group g).holder ≠ some st ∧
        (t.queue st).waiting = s.returned st b) ∧
      (∀ k, k ≠ st → t.station k = s.station k) ∧ t.book = s.book ∧ t.registry = s.registry ∧
      t.acks = s.acks ∧ t.clock = s.clock ∧ t.store = s.store

/-- An exchange that ends with no reply (R132, R133, R194): the reply window runs out, the reply breaks off at a gap,
its first characters show it malformed, or it is complete and malformed. Where its station has left meanwhile it ends
without effect (R137). Otherwise it counts a miss (R140): SUSPECT below the miss limit and SILENT at it with RESYNC
pending and the queue flushed. After a POLL the next poll is armed (R134, R141). After a BURST the items return to the
head of the queue and the grant is released with the wait-for-idle mark set (R118, R119, R135), but for a station
whose group changed meanwhile (R137); the due tick is kept unless the station goes SILENT. That the group's holder is
then not this station rests on the model's reading that the mark is set before the arbiter acts (entry 8). The flush
widens the open call of every page lost (R123). A POLL of a station already SILENT changes nothing but its due tick,
which is 8 × P on (R140, R141, R145). -/
def Obligations.NoReplyCountsAMiss : Prop :=
  ∀ (s : State) (i : Instr) (x : Exchange) (st : Nat),
    (i = .replyWindowExpiry ∨ i = .replyGapAbandon ∨
      (∃ chars, i = .malformedReplyStart chars ∧ replyShape chars = .malformed) ∨
      ∃ chars, (i = .pollReply chars ∨ i = .burstReply chars) ∧ replyShape chars = .complete chars ∧
        readReply x chars = none) →
    s.line.exchange = some x → x.station = st → 1 ≤ st → st ≤ 12 →
    (x.void = true →
      exec i s = .next (State.sendReady { s with line := { s.line with exchange := none } })) ∧
    (x.void = false → x.kind = .poll → (s.station st).service = .silent →
      ∃ t : State, exec i s = .next t.sendReady ∧
        t.station st = { s.station st with
          pollWaits := false, due := some (s.clock + BitVec.ofNat 24 (8 * s.store.params.pollPeriod)) } ∧
        (∀ k, k ≠ st → t.station k = s.station k) ∧
        t = { s with line := { s.line with stations := t.line.stations, exchange := none } }) ∧
    (x.void = false → ((s.station st).service = .inService ∨ (s.station st).service = .suspect) →
      (x.kind = .burst → x.detached = false → 1 ≤ (s.station st).group ∧ (s.station st).group ≤ 4 ∧
        (s.group (s.station st).group).holder = some st) →
      ∃ t : State, exec i s = .next t.sendReady ∧ t.line.exchange = none ∧ .station st ∈ t.link.notices ∧
        (s.store.params.missLimit ≤ (s.station st).misses + 1 →
          t.station st = { s.station st with
            service := .silent, misses := (s.station st).misses + 1, resync := true, pollWaits := false
            due := some (s.clock + BitVec.ofNat 24 (8 * s.store.params.pollPeriod)) } ∧
          t.queue st = .empty ∧ st ∉ t.line.followUps ∧
          s.Flushes t (if x.kind = .burst ∧ x.detached = false then s.heldOnReturn st else s.heldAt st)) ∧
        ((s.station st).misses + 1 < s.store.params.missLimit →
          t.book = s.book ∧ t.line.followUps = s.line.followUps ∧
          (x.kind = .poll → t.queue st = s.queue st ∧ t.station st = { s.station st with
            service := .suspect, misses := (s.station st).misses + 1, pollWaits := false
            due := some (s.clock + BitVec.ofNat 24 s.store.params.pollPeriod) }) ∧
          (x.kind = .burst → t.station st = { s.station st with
            service := .suspect, misses := (s.station st).misses + 1 }) ∧
          (x.kind = .burst → x.detached = true → t.queue st = s.queue st) ∧
          (x.kind = .burst → x.detached = false → (t.queue st).phase = .none ∧ (t.queue st).waitIdle = true ∧
            (t.queue st).flight = none ∧ (t.group (s.station st).group).holder ≠ some st ∧
            ∀ b, (s.queue st).flight = some b → (t.queue st).waiting = s.returned st b)) ∧
        (∀ k, k ≠ st → t.station k = s.station k) ∧ t.registry = s.registry ∧ t.acks = s.acks ∧
        t.clock = s.clock ∧ t.store = s.store ∧
        (∀ m, (t.findCall m).map Call.core = (s.findCall m).map Call.core))

/-- SET_STATION, the store not SAVING (R124, R137, R148, R149). A station number, an action, or for DEFINE a channel
group, a service setting or a neighbour list out of range (R100) is refused with BAD_VALUE. DEFINE of an undefined
station, which is due at once with RESYNC pending when set IN_SERVICE; DEFINE of a defined one, which where the
channel group changes gives up the grant of the old group and takes back the items of a burst in flight, whose reply
then acts on the health of the station alone; REMOVE, which leaves the undefined values, an empty queue and no
exchange of the station with an effect (R137), and which refuses an undefined station, both whatever its other
characters (R190). A station that leaves service widens
the open call of every page it loses (R123). A DEFINE posts the station exactly when a reported field changes (R149,
R150); one that changes the group has the arbiters of the old and the new group act, and one that brings the station
into service that of its group (R116, R124), the old group's before the new group's, which is the model's choice (entry
39): afterwards no grant of theirs waits to be given, nor does one after a
station has left. A DEFINE that changes the group and sets OUT_OF_SERVICE at once is carried out group first, then the
service setting, so that a burst in flight returns before the flush and its stale pages widen no call; and one that
brings a station into service with a new group has the arbiters act before and after it enters: that order is the
model's reading of R149 (entry 30). -/
def Obligations.StationsAreSet : Prop :=
  (∀ (s : State) (tag st a g v : Byte) (ns : List Byte), s.TakesRequests → s.store.state = .idle →
    ns.length ≤ 245 →
    (st.toNat = 0 ∨ 12 < st.toNat ∨ 1 < a.toNat ∨
      a = 0#8 ∧ (g.toNat = 0 ∨ 4 < g.toNat ∨ (v ≠ 0#8 ∧ v ≠ 3#8) ∨ 4 < ns.length ∨
        (∃ k ∈ ns, k.toNat = 0 ∨ 12 < k.toNat) ∨ st ∈ ns ∨ ¬ ns.Nodup)) →
    (a ≠ 1#8 → exec (.setStationDefine tag ([st, a, g, v, BitVec.ofNat 8 ns.length] ++ ns)) s =
      .next (s.heard.replying 0x92#8 tag .badValue [])) ∧
    (a = 1#8 → exec (.setStationRemove tag ([st, a, g, v, BitVec.ofNat 8 ns.length] ++ ns)) s =
      .next (s.heard.replying 0x92#8 tag .badValue []))) ∧
  ∀ (s : State) (tag : Byte) (st g : Nat) (v : Service) (ns : List Nat), s.TakesRequests →
    s.store.state = .idle → 1 ≤ st → st ≤ 12 → 1 ≤ g → g ≤ 4 → (v = .inService ∨ v = .outOfService) →
    ns.length ≤ 4 → ns.Nodup → st ∉ ns → (∀ k ∈ ns, 1 ≤ k ∧ k ≤ 12) →
    let define := [BitVec.ofNat 8 st, 0#8, BitVec.ofNat 8 g, BitVec.ofNat 8 v.code,
      BitVec.ofNat 8 ns.length] ++ ns.map (BitVec.ofNat 8)
    ((s.station st).defined = false →
      ∃ t, exec (.setStationDefine tag define) s =
          .next (State.replying t 0x92#8 tag .ok [BitVec.ofNat 8 st]) ∧
        t.station st = ⟨true, g, v, v, 0, if v = .inService then some s.clock else none,
          decide (v = .inService), 0#8, true, ns⟩ ∧ (v = .inService → t.GrantSettled g) ∧
        .station st ∈ t.link.notices ∧ (∀ k, k ≠ st → t.station k = s.station k) ∧ t.book = s.book ∧
        t.registry = s.registry ∧ t.clock = s.clock ∧ t.store = s.store ∧ t.acks = s.acks) ∧
    ((s.station st).defined = true →
      ∃ t, exec (.setStationDefine tag define) s =
          .next (State.replying t 0x92#8 tag .ok [BitVec.ofNat 8 st]) ∧
        (t.station st).defined = true ∧ (t.station st).group = g ∧ (t.station st).setting = v ∧
        (t.station st).neighbours = ns ∧ (t.station st).mark = (s.station st).mark ∧
        t.link = { s.heard.link with notices := t.link.notices } ∧ t.ladders = s.ladders ∧ t.beacons = s.beacons ∧
        (.station st ∈ t.link.notices ↔ .station st ∈ s.link.notices ∨
          (t.station st).group ≠ (s.station st).group ∨ (t.station st).setting ≠ (s.station st).setting ∨
          (t.station st).service ≠ (s.station st).service ∨ (t.station st).misses ≠ (s.station st).misses ∨
          (t.station st).neighbours ≠ (s.station st).neighbours) ∧
        (v = .outOfService → t.GrantSettled g ∧
          (1 ≤ (s.station st).group → (s.station st).group ≤ 4 → t.GrantSettled (s.station st).group)) ∧
        (v = .inService → ∃ u w y : State,
          u = (if .station st ∈ t.link.notices then s.heard.withNotice (.station st) else s.heard) ∧
          u.TakesValues w st g v ns ∧
          y = (if (s.station st).group = g then w else (w.arbitrate (s.station st).group).arbitrate g) ∧
          ((s.station st).service ≠ .outOfService → t = y) ∧
          ((s.station st).service = .outOfService → ∃ z : State, z = { y with line := { y.line with
              stations := z.line.stations } } ∧ z.station st = t.station st ∧
            (∀ k, k ≠ st → z.station k = s.station k) ∧ t = z.arbitrate g)) ∧
        (v = .outOfService → (t.station st).service = .outOfService ∧ (t.station st).due = none ∧
          t.queue st = .empty ∧ st ∉ t.line.followUps ∧
          t.line.exchange = s.line.exchange.map (fun x => if x.station = st then
            { x with void := true, detached := x.detached || decide (x.kind = .burst ∧ (s.station st).group ≠ g ∧
              (s.queue st).phase = .inFlight) } else x) ∧
          s.Flushes t (if (s.station st).group ≠ g ∧ (s.queue st).phase = .inFlight then s.heldOnReturn st
            else s.heldAt st)) ∧
        (v = .inService → t.book = s.book) ∧
        (v = .inService → (s.station st).service = .outOfService →
          (t.station st).service = .inService ∧ (t.station st).misses = 0 ∧
          (t.station st).resync = true ∧ (t.station st).due = some s.clock) ∧
        (v = .inService → (s.station st).service ≠ .outOfService →
          (t.station st).service = (s.station st).service ∧
          (t.station st).misses = (s.station st).misses ∧ (t.station st).due = (s.station st).due) ∧
        (v = .inService → (s.station st).group ≠ g →
          (t.group (s.station st).group).holder ≠ some st ∧ (t.queue st).waitIdle = (s.queue st).waitIdle ∧
          ((s.queue st).phase ≠ .inFlight → (t.queue st).waiting = (s.queue st).waiting ∧
            (t.queue st).flight = (s.queue st).flight ∧ t.line.exchange = s.line.exchange) ∧
          ((s.queue st).phase = .inFlight → (t.queue st).flight = none ∧
            (∀ b, (s.queue st).flight = some b → (t.queue st).waiting = s.returned st b) ∧
            t.line.exchange = s.line.exchange.map (fun x =>
              if x.station = st ∧ x.kind = .burst then { x with detached := true } else x))) ∧
        (∀ k, k ≠ st → t.station k = s.station k) ∧ t.registry = s.registry ∧ t.clock = s.clock ∧
        t.store = s.store ∧ t.acks = s.acks ∧
        (∀ m, (t.findCall m).map Call.core = (s.findCall m).map Call.core)) ∧
    (∀ (h w : Byte) (nb : List Byte), (s.station st).defined = true → nb.length ≤ 245 →
      ∃ t, exec (.setStationRemove tag ([BitVec.ofNat 8 st, 1#8, h, w, BitVec.ofNat 8 nb.length] ++ nb)) s =
          .next (State.replying t 0x92#8 tag .ok [BitVec.ofNat 8 st]) ∧
        t.station st = ⟨false, 1, .inService, .outOfService, 0, none, false, 0#8, false, []⟩ ∧
        t.queue st = .empty ∧ st ∉ t.line.followUps ∧ .station st ∈ t.link.notices ∧
        s.Flushes t (s.heldAt st) ∧
        (1 ≤ (s.station st).group → (s.station st).group ≤ 4 → t.GrantSettled (s.station st).group) ∧
        t.line.exchange = s.line.exchange.map (fun x => if x.station = st then { x with void := true } else x) ∧
        (∀ k, k ≠ st → t.station k = s.station k) ∧ t.registry = s.registry ∧ t.clock = s.clock ∧
        t.store = s.store ∧ t.acks = s.acks ∧
        (∀ m, (t.findCall m).map Call.core = (s.findCall m).map Call.core)) ∧
    ∀ (h w : Byte) (nb : List Byte), (s.station st).defined = false → nb.length ≤ 245 →
      exec (.setStationRemove tag ([BitVec.ofNat 8 st, 1#8, h, w, BitVec.ofNat 8 nb.length] ++ nb)) s =
        .next (s.heard.replying 0x92#8 tag .noSuchEntry [])

/-! ### Beacons and parameters -/

/-- BEACON_PERIOD_END and BEACON_ON_TIME_END (R156): a period that has run out starts anew with the output at the
active level; past the on-time, within the period, the output is at the idle level. That each of the two changes
nothing where its position is not reached is the model's choice (entry 1). -/
def Obligations.BeaconsFlashByTheirPosition : Prop :=
  ∀ (s : State) (z : Nat) (d : Driving), 1 ≤ z → z ≤ 8 → (s.beacon z).driving = some d →
    (d.period ≤ (s.clock - d.start).toNat → 1 ≤ d.onTime →
      ∃ t, exec (.beaconPeriodEnd z) s = .next t ∧
        t.beacon z = { s.beacon z with
          driving := some { d with start := s.clock }
          output := if (s.beacon z).idle = .low then .high else .low } ∧
        (∀ k, k ≠ z → t.beacon k = s.beacon k) ∧ t = { s with beacons := t.beacons }) ∧
    (d.onTime ≤ (s.clock - d.start).toNat → (s.clock - d.start).toNat < d.period →
      ∃ t, exec (.beaconOnTimeEnd z) s = .next t ∧
        t.beacon z = { s.beacon z with output := if (s.beacon z).idle = .low then .low else .high } ∧
        (∀ k, k ≠ z → t.beacon k = s.beacon k) ∧ t = { s with beacons := t.beacons }) ∧
    ((s.clock - d.start).toNat < d.period → exec (.beaconPeriodEnd z) s = .next s) ∧
    ((s.clock - d.start).toNat < d.onTime → exec (.beaconOnTimeEnd z) s = .next s)

/-- BEACON_HOLD with its two actions (R155, R157, R158): HOLD sets the manual hold and RELEASE clears it, and the
beacon settles at the highest class among its hold and its holders, its phase undisturbed where it drives with that
class already, at the start of a period where the class is another, and at rest where there is none; the reply shows
the beacon as it then stands; and its refusals. A call whose held beacon changes leaves the holders of the old one and
joins the end of those of the new one, each of which then settles so, and no other beacon changes (R154). SET_BEACON,
the store not SAVING (R159): the idle level changes at once and the output with it, a driving beacon keeping its
phase; a level already set changes nothing; BAD_VALUE otherwise. -/
def Obligations.BeaconsAreHeldAndSet : Prop :=
  (∀ (s : State) (tag : Byte) (z : Nat) (cls : Cls) (w : Byte), s.TakesRequests → 1 ≤ z → z ≤ 8 →
     (∃ t k, exec (.beaconHold tag [BitVec.ofNat 8 z, 0#8, BitVec.ofNat 8 cls.rank]) s =
         .next (State.replying t 0x94#8 tag .ok (BitVec.ofNat 8 z :: beaconBlock s.clock (t.beacon z))) ∧
       s.TopClass (some cls) (s.beacon z).holders k ∧
       t.beacon z = { s.beacon z with hold := some cls }.settled k s.store.params.pattern s.clock ∧
       (∀ y, y ≠ z → t.beacon y = s.beacon y) ∧ t = { s.heard with beacons := t.beacons }) ∧
     (∃ t k, exec (.beaconRelease tag [BitVec.ofNat 8 z, 1#8, w]) s =
         .next (State.replying t 0x94#8 tag .ok (BitVec.ofNat 8 z :: beaconBlock s.clock (t.beacon z))) ∧
       s.TopClass none (s.beacon z).holders k ∧
       t.beacon z = { s.beacon z with hold := none }.settled k s.store.params.pattern s.clock ∧
       (∀ y, y ≠ z → t.beacon y = s.beacon y) ∧ t = { s.heard with beacons := t.beacons })) ∧
  (∀ (s t : State) (n : Nat) (c c' : Call) (f : Call → Call), s.findCall n = some c → c' = f c → c'.number = n →
     t = s.changeCall n f →
     (c'.heldBeacon = c.heldBeacon → t.beacons = s.beacons) ∧
     (∀ z, 1 ≤ z → z ≤ 8 → c.heldBeacon = some z → c'.heldBeacon ≠ some z →
       ∃ hs k, hs = (s.beacon z).holders.filter (fun m => decide (m ≠ n)) ∧ t.TopClass (s.beacon z).hold hs k ∧
         t.beacon z = { s.beacon z with holders := hs }.settled k s.store.params.pattern s.clock) ∧
     (∀ z, 1 ≤ z → z ≤ 8 → c'.heldBeacon = some z → c.heldBeacon ≠ some z →
       ∃ hs k, hs = (if n ∈ (s.beacon z).holders then (s.beacon z).holders else (s.beacon z).holders ++ [n]) ∧
         t.TopClass (s.beacon z).hold hs k ∧
         t.beacon z = { s.beacon z with holders := hs }.settled k s.store.params.pattern s.clock) ∧
     ∀ z, c.heldBeacon ≠ some z → c'.heldBeacon ≠ some z → t.beacon z = s.beacon z) ∧
  (∀ (s : State) (tag z a v : Byte), s.TakesRequests →
     (z.toNat = 0 ∨ 8 < z.toNat ∨ 1 < a.toNat ∨ (a = 0#8 ∧ 3 < v.toNat) →
       (a ≠ 1#8 → exec (.beaconHold tag [z, a, v]) s = .next (s.heard.replying 0x94#8 tag .badValue [])) ∧
       (a = 1#8 → exec (.beaconRelease tag [z, a, v]) s =
         .next (s.heard.replying 0x94#8 tag .badValue []))) ∧
     (s.store.state = .idle → z.toNat = 0 ∨ 8 < z.toNat ∨ 1 < v.toNat →
       exec (.setBeacon tag [z, v]) s = .next (s.heard.replying 0x96#8 tag .badValue [])) ∧
     ∀ level : Level, s.store.state = .idle → 1 ≤ z.toNat → z.toNat ≤ 8 →
       v = BitVec.ofNat 8 level.code →
       ((s.beacon z.toNat).idle = level →
         exec (.setBeacon tag [z, v]) s = .next (s.heard.replying 0x96#8 tag .ok [z])) ∧
       ((s.beacon z.toNat).idle ≠ level →
         ∃ t, exec (.setBeacon tag [z, v]) s = .next (State.replying t 0x96#8 tag .ok [z]) ∧
           t.beacon z.toNat = { s.beacon z.toNat with
             idle := level
             output := match (s.beacon z.toNat).driving with
               | none => if level = .low then .low else .high
               | some d => if (s.clock - d.start).toNat < d.onTime then
                   (if level = .low then .high else .low) else (if level = .low then .low else .high) } ∧
           (∀ k, k ≠ z.toNat → t.beacon k = s.beacon k) ∧ t = { s.heard with beacons := t.beacons }))

/-- SET_PARAMS, the store not SAVING (R174, R182 to R184): each selected value clamped to its range, the others
kept, and the whole set in the reply; every driving beacon whose pattern changed starts a period; a changed
silence limit reloads the timer; the rate in use stays. -/
def Obligations.ParametersAreClamped : Prop :=
  ∀ (s : State) (tag : Byte) (sel : BitVec 24) (v : Params), s.TakesRequests → s.store.state = .idle →
    (v.factor.routine < 256 ∧ v.factor.urgent < 256 ∧ v.factor.hazard < 256 ∧ v.factor.emergency < 256) →
    (v.freshness < 65536 ∧ v.dedupe < 256 ∧ v.silence < 65536 ∧ v.pollPeriod < 256 ∧
      v.airtimeLimit < 256 ∧ v.stayLimit < 256 ∧ v.missLimit < 256 ∧ v.rate < 16777216) →
    (∀ c, (v.pattern.get c).period < 256 ∧ (v.pattern.get c).onTime < 256) →
    ∃ (t : State) (p : Params), exec (.setParams tag (enc3 sel.toNat ++ paramsReply v)) s =
        .next (t.replying 0x97#8 tag .ok (paramsReply p)) ∧ t.store = { s.store with params := p } ∧
      p.factor = ⟨if sel.getLsbD 0 then max 1 (min 16 v.factor.routine) else s.store.params.factor.routine,
        if sel.getLsbD 1 then max 1 (min 16 v.factor.urgent) else s.store.params.factor.urgent,
        if sel.getLsbD 2 then max 1 (min 16 v.factor.hazard) else s.store.params.factor.hazard,
        if sel.getLsbD 3 then max 1 (min 16 v.factor.emergency) else s.store.params.factor.emergency⟩ ∧
      p.freshness = (if sel.getLsbD 4 then max 30 (min 3600 v.freshness) else s.store.params.freshness) ∧
      p.dedupe = (if sel.getLsbD 5 then max 2 (min 60 v.dedupe) else s.store.params.dedupe) ∧
      p.silence = (if sel.getLsbD 6 then max 5 (min 300 v.silence) else s.store.params.silence) ∧
      p.pollPeriod = (if sel.getLsbD 7 then max 2 (min 16 v.pollPeriod) else s.store.params.pollPeriod) ∧
      p.airtimeLimit =
        (if sel.getLsbD 8 then max 16 (min 120 v.airtimeLimit) else s.store.params.airtimeLimit) ∧
      p.stayLimit = (if sel.getLsbD 9 then max 1 (min 4 v.stayLimit) else s.store.params.stayLimit) ∧
      p.missLimit = (if sel.getLsbD 10 then max 2 (min 8 v.missLimit) else s.store.params.missLimit) ∧
      (∀ c, p.pattern.get c = if sel.getLsbD (11 + c.rank) then
        ⟨max 2 (min 32 (v.pattern.get c).period),
          max 1 (min (max 2 (min 32 (v.pattern.get c).period)) (v.pattern.get c).onTime)⟩
        else s.store.params.pattern.get c) ∧
      (sel.getLsbD 15 = false → p.rate = s.store.params.rate) ∧
      (sel.getLsbD 15 = true → p.rate ∈ [9600, 19200, 38400, 57600, 115200] ∧
        (9600 ≤ v.rate → p.rate ≤ v.rate) ∧ (v.rate < 9600 → p.rate = 9600) ∧
        ∀ q ∈ [9600, 19200, 38400, 57600, 115200], q ≤ v.rate → q ≤ p.rate) ∧
      (∀ z, t.beacon z = match (s.beacon z).driving with
        | none => s.beacon z
        | some d => if p.pattern.get d.cls = s.store.params.pattern.get d.cls then s.beacon z
          else { s.beacon z with
            driving := some ⟨d.cls, (p.pattern.get d.cls).period, (p.pattern.get d.cls).onTime, s.clock⟩
            output := if (s.beacon z).idle = .low then .high else .low }) ∧
      t.link = { s.heard.link with silence := some (s.clock + BitVec.ofNat 24 (p.silence * 8)) } ∧
      t = { s.heard with store := t.store, beacons := t.beacons, link := t.link }

/-! ### What every step keeps -/

/-- Every step keeps the call book and the pools sound, each pool's pointer at a position of its list or 0 for an empty
one (R1, R2, R4, R5, R7, R24, R35, R55), and with them the call-point
table and the pending-press list (R5, R11, R16): keys are distinct, an entry is OPEN exactly with its open call and
PENDING exactly while its key is on the list, which holds no key twice, and while a press waits the book has no free
slot and no CLOSED record. The ascending order of the records is the model's own (entry 22), and that no call point is
held during the start-up load is the model's choice of the tables held until its end (entry 12). -/
def Obligations.StepsKeepTheBookSound : Prop :=
  (∀ s t : State, s.BookSound → step s = .next t → t.BookSound) ∧
  ∀ s t : State, s.BookSound → s.PointsSound → step s = .next t → t.PointsSound

/-- Every step keeps the holder sets and the drives of the beacons true to the call book (R153 to R157). -/
def Obligations.StepsKeepTheBeaconsSound : Prop :=
  ∀ s t : State, s.BookSound → s.BeaconsSound → step s = .next t → t.BeaconsSound

/-- Every step keeps the page queues within 24 items with no two equal and the ordered part in descending class (R109
to R111, R119); the notice list without repeats and without a call that is not in the book, the reply queue within 8
replies, and nothing ready on a free path while HCTS stands asserted (R6, R166, R169, R170). That the record freed at
the end of its frame leaves the notice list too is the model's reading (entry 29). -/
def Obligations.StepsKeepTheQueuesAndTheLinkSound : Prop :=
  (∀ s t : State, s.QueuesSound → step s = .next t → t.QueuesSound) ∧
  (∀ s t : State, s.LinkSound → step s = .next t → t.LinkSound)

/-- Every step keeps every stored value within its range, so that a STORE always saves an image the start-up load
takes (R11, R25, R35, R45, R99, R138, R180, R182), and the directory true to the crews' members (R28 to R30). -/
def Obligations.StepsKeepTheTablesInRange : Prop :=
  ∀ s t : State, s.RegistrySound → s.TablesSound → step s = .next t → t.RegistrySound ∧ t.TablesSound

/-- Every step keeps the accepted lists true to the calls' accepting crews (R2, R30, R31), and the
recent-acknowledgement list within 64 entries, no two of which have the same pager, call and kind (R76, R77). -/
def Obligations.StepsKeepTheAcceptedLists : Prop :=
  (∀ s t : State, s.BookSound → s.RegistrySound → s.AcceptedSound → step s = .next t → t.AcceptedSound) ∧
  ∀ s t : State, s.AcksSound → step s = .next t → t.AcksSound

/-- Every step keeps a station that is not usable without pages and without a grant, and every grant within its
own group (R107, R115, R123, R124). That no station is defined during the start-up load is the model's choice of the
tables held until its end (entry 12). -/
def Obligations.StepsKeepTheAirSound : Prop :=
  ∀ s t : State, s.AirSound → step s = .next t → t.AirSound

/-- What State.reset holds: every block as a reset leaves it (R179), and every invariant stated above. The cause
POWER_ON, the erased EEPROM, RSTN high, HCTS deasserted, the empty command queue and the tables held during the
load are the model's choices (entries 2, 11, 12, 25). -/
def Obligations.ResetStateIsSound : Prop :=
  (State.reset.JustReset .powerOn ∧ State.reset.pending = [] ∧ State.reset.store.eeprom = .erased ∧
     State.reset.store.rstnLow = false ∧ State.reset.link.hcts = false) ∧
  (State.reset.BookSound ∧ State.reset.PointsSound ∧ State.reset.BeaconsSound ∧ State.reset.QueuesSound ∧
     State.reset.RegistrySound ∧ State.reset.TablesSound ∧ State.reset.AcceptedSound ∧ State.reset.AcksSound ∧
     State.reset.AirSound ∧ State.reset.LinkSound)
end

