-- ==== Sys2Proof/Laws/State.lean ====
section
/-!
SUPPORT. One lemma for each block and each update of a block: reading a block after an update.
-/

namespace Sys2Proof.Machine

/-! ### After `setPending` -/

@[simp] theorem State.setPending_pending (s : State) (x : List Instr) :
    (s.setPending x).pending = x := rfl
@[simp] theorem State.setPending_clock (s : State) (x : List Instr) :
    (s.setPending x).clock = s.clock := rfl
@[simp] theorem State.setPending_book (s : State) (x : List Instr) :
    (s.setPending x).book = s.book := rfl
@[simp] theorem State.setPending_registry (s : State) (x : List Instr) :
    (s.setPending x).registry = s.registry := rfl
@[simp] theorem State.setPending_ladders (s : State) (x : List Instr) :
    (s.setPending x).ladders = s.ladders := rfl
@[simp] theorem State.setPending_acks (s : State) (x : List Instr) :
    (s.setPending x).acks = s.acks := rfl
@[simp] theorem State.setPending_sched (s : State) (x : List Instr) :
    (s.setPending x).sched = s.sched := rfl
@[simp] theorem State.setPending_line (s : State) (x : List Instr) :
    (s.setPending x).line = s.line := rfl
@[simp] theorem State.setPending_beacons (s : State) (x : List Instr) :
    (s.setPending x).beacons = s.beacons := rfl
@[simp] theorem State.setPending_link (s : State) (x : List Instr) :
    (s.setPending x).link = s.link := rfl
@[simp] theorem State.setPending_store (s : State) (x : List Instr) :
    (s.setPending x).store = s.store := rfl
@[simp] theorem State.setPending_setPending (s : State) (x y : List Instr) :
    (s.setPending x).setPending y = s.setPending y := rfl
@[simp] theorem State.setPending_self (s : State) : s.setPending s.pending = s := rfl

/-! ### After `setClock` -/

@[simp] theorem State.setClock_pending (s : State) (x : Tick) :
    (s.setClock x).pending = s.pending := rfl
@[simp] theorem State.setClock_clock (s : State) (x : Tick) :
    (s.setClock x).clock = x := rfl
@[simp] theorem State.setClock_book (s : State) (x : Tick) :
    (s.setClock x).book = s.book := rfl
@[simp] theorem State.setClock_registry (s : State) (x : Tick) :
    (s.setClock x).registry = s.registry := rfl
@[simp] theorem State.setClock_ladders (s : State) (x : Tick) :
    (s.setClock x).ladders = s.ladders := rfl
@[simp] theorem State.setClock_acks (s : State) (x : Tick) :
    (s.setClock x).acks = s.acks := rfl
@[simp] theorem State.setClock_sched (s : State) (x : Tick) :
    (s.setClock x).sched = s.sched := rfl
@[simp] theorem State.setClock_line (s : State) (x : Tick) :
    (s.setClock x).line = s.line := rfl
@[simp] theorem State.setClock_beacons (s : State) (x : Tick) :
    (s.setClock x).beacons = s.beacons := rfl
@[simp] theorem State.setClock_link (s : State) (x : Tick) :
    (s.setClock x).link = s.link := rfl
@[simp] theorem State.setClock_store (s : State) (x : Tick) :
    (s.setClock x).store = s.store := rfl
@[simp] theorem State.setClock_setClock (s : State) (x y : Tick) :
    (s.setClock x).setClock y = s.setClock y := rfl
@[simp] theorem State.setClock_self (s : State) : s.setClock s.clock = s := rfl

/-! ### After `setBook` -/

@[simp] theorem State.setBook_pending (s : State) (x : CallBook) :
    (s.setBook x).pending = s.pending := rfl
@[simp] theorem State.setBook_clock (s : State) (x : CallBook) :
    (s.setBook x).clock = s.clock := rfl
@[simp] theorem State.setBook_book (s : State) (x : CallBook) :
    (s.setBook x).book = x := rfl
@[simp] theorem State.setBook_registry (s : State) (x : CallBook) :
    (s.setBook x).registry = s.registry := rfl
@[simp] theorem State.setBook_ladders (s : State) (x : CallBook) :
    (s.setBook x).ladders = s.ladders := rfl
@[simp] theorem State.setBook_acks (s : State) (x : CallBook) :
    (s.setBook x).acks = s.acks := rfl
@[simp] theorem State.setBook_sched (s : State) (x : CallBook) :
    (s.setBook x).sched = s.sched := rfl
@[simp] theorem State.setBook_line (s : State) (x : CallBook) :
    (s.setBook x).line = s.line := rfl
@[simp] theorem State.setBook_beacons (s : State) (x : CallBook) :
    (s.setBook x).beacons = s.beacons := rfl
@[simp] theorem State.setBook_link (s : State) (x : CallBook) :
    (s.setBook x).link = s.link := rfl
@[simp] theorem State.setBook_store (s : State) (x : CallBook) :
    (s.setBook x).store = s.store := rfl
@[simp] theorem State.setBook_setBook (s : State) (x y : CallBook) :
    (s.setBook x).setBook y = s.setBook y := rfl
@[simp] theorem State.setBook_self (s : State) : s.setBook s.book = s := rfl

/-! ### After `setRegistry` -/

@[simp] theorem State.setRegistry_pending (s : State) (x : Registry) :
    (s.setRegistry x).pending = s.pending := rfl
@[simp] theorem State.setRegistry_clock (s : State) (x : Registry) :
    (s.setRegistry x).clock = s.clock := rfl
@[simp] theorem State.setRegistry_book (s : State) (x : Registry) :
    (s.setRegistry x).book = s.book := rfl
@[simp] theorem State.setRegistry_registry (s : State) (x : Registry) :
    (s.setRegistry x).registry = x := rfl
@[simp] theorem State.setRegistry_ladders (s : State) (x : Registry) :
    (s.setRegistry x).ladders = s.ladders := rfl
@[simp] theorem State.setRegistry_acks (s : State) (x : Registry) :
    (s.setRegistry x).acks = s.acks := rfl
@[simp] theorem State.setRegistry_sched (s : State) (x : Registry) :
    (s.setRegistry x).sched = s.sched := rfl
@[simp] theorem State.setRegistry_line (s : State) (x : Registry) :
    (s.setRegistry x).line = s.line := rfl
@[simp] theorem State.setRegistry_beacons (s : State) (x : Registry) :
    (s.setRegistry x).beacons = s.beacons := rfl
@[simp] theorem State.setRegistry_link (s : State) (x : Registry) :
    (s.setRegistry x).link = s.link := rfl
@[simp] theorem State.setRegistry_store (s : State) (x : Registry) :
    (s.setRegistry x).store = s.store := rfl
@[simp] theorem State.setRegistry_setRegistry (s : State) (x y : Registry) :
    (s.setRegistry x).setRegistry y = s.setRegistry y := rfl
@[simp] theorem State.setRegistry_self (s : State) : s.setRegistry s.registry = s := rfl

/-! ### After `setLadders` -/

@[simp] theorem State.setLadders_pending (s : State) (x : Vector Ladder 16) :
    (s.setLadders x).pending = s.pending := rfl
@[simp] theorem State.setLadders_clock (s : State) (x : Vector Ladder 16) :
    (s.setLadders x).clock = s.clock := rfl
@[simp] theorem State.setLadders_book (s : State) (x : Vector Ladder 16) :
    (s.setLadders x).book = s.book := rfl
@[simp] theorem State.setLadders_registry (s : State) (x : Vector Ladder 16) :
    (s.setLadders x).registry = s.registry := rfl
@[simp] theorem State.setLadders_ladders (s : State) (x : Vector Ladder 16) :
    (s.setLadders x).ladders = x := rfl
@[simp] theorem State.setLadders_acks (s : State) (x : Vector Ladder 16) :
    (s.setLadders x).acks = s.acks := rfl
@[simp] theorem State.setLadders_sched (s : State) (x : Vector Ladder 16) :
    (s.setLadders x).sched = s.sched := rfl
@[simp] theorem State.setLadders_line (s : State) (x : Vector Ladder 16) :
    (s.setLadders x).line = s.line := rfl
@[simp] theorem State.setLadders_beacons (s : State) (x : Vector Ladder 16) :
    (s.setLadders x).beacons = s.beacons := rfl
@[simp] theorem State.setLadders_link (s : State) (x : Vector Ladder 16) :
    (s.setLadders x).link = s.link := rfl
@[simp] theorem State.setLadders_store (s : State) (x : Vector Ladder 16) :
    (s.setLadders x).store = s.store := rfl
@[simp] theorem State.setLadders_setLadders (s : State) (x y : Vector Ladder 16) :
    (s.setLadders x).setLadders y = s.setLadders y := rfl
@[simp] theorem State.setLadders_self (s : State) : s.setLadders s.ladders = s := rfl

/-! ### After `setAcks` -/

@[simp] theorem State.setAcks_pending (s : State) (x : List AckEntry) :
    (s.setAcks x).pending = s.pending := rfl
@[simp] theorem State.setAcks_clock (s : State) (x : List AckEntry) :
    (s.setAcks x).clock = s.clock := rfl
@[simp] theorem State.setAcks_book (s : State) (x : List AckEntry) :
    (s.setAcks x).book = s.book := rfl
@[simp] theorem State.setAcks_registry (s : State) (x : List AckEntry) :
    (s.setAcks x).registry = s.registry := rfl
@[simp] theorem State.setAcks_ladders (s : State) (x : List AckEntry) :
    (s.setAcks x).ladders = s.ladders := rfl
@[simp] theorem State.setAcks_acks (s : State) (x : List AckEntry) :
    (s.setAcks x).acks = x := rfl
@[simp] theorem State.setAcks_sched (s : State) (x : List AckEntry) :
    (s.setAcks x).sched = s.sched := rfl
@[simp] theorem State.setAcks_line (s : State) (x : List AckEntry) :
    (s.setAcks x).line = s.line := rfl
@[simp] theorem State.setAcks_beacons (s : State) (x : List AckEntry) :
    (s.setAcks x).beacons = s.beacons := rfl
@[simp] theorem State.setAcks_link (s : State) (x : List AckEntry) :
    (s.setAcks x).link = s.link := rfl
@[simp] theorem State.setAcks_store (s : State) (x : List AckEntry) :
    (s.setAcks x).store = s.store := rfl
@[simp] theorem State.setAcks_setAcks (s : State) (x y : List AckEntry) :
    (s.setAcks x).setAcks y = s.setAcks y := rfl
@[simp] theorem State.setAcks_self (s : State) : s.setAcks s.acks = s := rfl

/-! ### After `setSched` -/

@[simp] theorem State.setSched_pending (s : State) (x : Scheduler) :
    (s.setSched x).pending = s.pending := rfl
@[simp] theorem State.setSched_clock (s : State) (x : Scheduler) :
    (s.setSched x).clock = s.clock := rfl
@[simp] theorem State.setSched_book (s : State) (x : Scheduler) :
    (s.setSched x).book = s.book := rfl
@[simp] theorem State.setSched_registry (s : State) (x : Scheduler) :
    (s.setSched x).registry = s.registry := rfl
@[simp] theorem State.setSched_ladders (s : State) (x : Scheduler) :
    (s.setSched x).ladders = s.ladders := rfl
@[simp] theorem State.setSched_acks (s : State) (x : Scheduler) :
    (s.setSched x).acks = s.acks := rfl
@[simp] theorem State.setSched_sched (s : State) (x : Scheduler) :
    (s.setSched x).sched = x := rfl
@[simp] theorem State.setSched_line (s : State) (x : Scheduler) :
    (s.setSched x).line = s.line := rfl
@[simp] theorem State.setSched_beacons (s : State) (x : Scheduler) :
    (s.setSched x).beacons = s.beacons := rfl
@[simp] theorem State.setSched_link (s : State) (x : Scheduler) :
    (s.setSched x).link = s.link := rfl
@[simp] theorem State.setSched_store (s : State) (x : Scheduler) :
    (s.setSched x).store = s.store := rfl
@[simp] theorem State.setSched_setSched (s : State) (x y : Scheduler) :
    (s.setSched x).setSched y = s.setSched y := rfl
@[simp] theorem State.setSched_self (s : State) : s.setSched s.sched = s := rfl

/-! ### After `setLine` -/

@[simp] theorem State.setLine_pending (s : State) (x : Line) :
    (s.setLine x).pending = s.pending := rfl
@[simp] theorem State.setLine_clock (s : State) (x : Line) :
    (s.setLine x).clock = s.clock := rfl
@[simp] theorem State.setLine_book (s : State) (x : Line) :
    (s.setLine x).book = s.book := rfl
@[simp] theorem State.setLine_registry (s : State) (x : Line) :
    (s.setLine x).registry = s.registry := rfl
@[simp] theorem State.setLine_ladders (s : State) (x : Line) :
    (s.setLine x).ladders = s.ladders := rfl
@[simp] theorem State.setLine_acks (s : State) (x : Line) :
    (s.setLine x).acks = s.acks := rfl
@[simp] theorem State.setLine_sched (s : State) (x : Line) :
    (s.setLine x).sched = s.sched := rfl
@[simp] theorem State.setLine_line (s : State) (x : Line) :
    (s.setLine x).line = x := rfl
@[simp] theorem State.setLine_beacons (s : State) (x : Line) :
    (s.setLine x).beacons = s.beacons := rfl
@[simp] theorem State.setLine_link (s : State) (x : Line) :
    (s.setLine x).link = s.link := rfl
@[simp] theorem State.setLine_store (s : State) (x : Line) :
    (s.setLine x).store = s.store := rfl
@[simp] theorem State.setLine_setLine (s : State) (x y : Line) :
    (s.setLine x).setLine y = s.setLine y := rfl
@[simp] theorem State.setLine_self (s : State) : s.setLine s.line = s := rfl

/-! ### After `setBeacons` -/

@[simp] theorem State.setBeacons_pending (s : State) (x : Vector Beacon 8) :
    (s.setBeacons x).pending = s.pending := rfl
@[simp] theorem State.setBeacons_clock (s : State) (x : Vector Beacon 8) :
    (s.setBeacons x).clock = s.clock := rfl
@[simp] theorem State.setBeacons_book (s : State) (x : Vector Beacon 8) :
    (s.setBeacons x).book = s.book := rfl
@[simp] theorem State.setBeacons_registry (s : State) (x : Vector Beacon 8) :
    (s.setBeacons x).registry = s.registry := rfl
@[simp] theorem State.setBeacons_ladders (s : State) (x : Vector Beacon 8) :
    (s.setBeacons x).ladders = s.ladders := rfl
@[simp] theorem State.setBeacons_acks (s : State) (x : Vector Beacon 8) :
    (s.setBeacons x).acks = s.acks := rfl
@[simp] theorem State.setBeacons_sched (s : State) (x : Vector Beacon 8) :
    (s.setBeacons x).sched = s.sched := rfl
@[simp] theorem State.setBeacons_line (s : State) (x : Vector Beacon 8) :
    (s.setBeacons x).line = s.line := rfl
@[simp] theorem State.setBeacons_beacons (s : State) (x : Vector Beacon 8) :
    (s.setBeacons x).beacons = x := rfl
@[simp] theorem State.setBeacons_link (s : State) (x : Vector Beacon 8) :
    (s.setBeacons x).link = s.link := rfl
@[simp] theorem State.setBeacons_store (s : State) (x : Vector Beacon 8) :
    (s.setBeacons x).store = s.store := rfl
@[simp] theorem State.setBeacons_setBeacons (s : State) (x y : Vector Beacon 8) :
    (s.setBeacons x).setBeacons y = s.setBeacons y := rfl
@[simp] theorem State.setBeacons_self (s : State) : s.setBeacons s.beacons = s := rfl

/-! ### After `setLink` -/

@[simp] theorem State.setLink_pending (s : State) (x : Link) :
    (s.setLink x).pending = s.pending := rfl
@[simp] theorem State.setLink_clock (s : State) (x : Link) :
    (s.setLink x).clock = s.clock := rfl
@[simp] theorem State.setLink_book (s : State) (x : Link) :
    (s.setLink x).book = s.book := rfl
@[simp] theorem State.setLink_registry (s : State) (x : Link) :
    (s.setLink x).registry = s.registry := rfl
@[simp] theorem State.setLink_ladders (s : State) (x : Link) :
    (s.setLink x).ladders = s.ladders := rfl
@[simp] theorem State.setLink_acks (s : State) (x : Link) :
    (s.setLink x).acks = s.acks := rfl
@[simp] theorem State.setLink_sched (s : State) (x : Link) :
    (s.setLink x).sched = s.sched := rfl
@[simp] theorem State.setLink_line (s : State) (x : Link) :
    (s.setLink x).line = s.line := rfl
@[simp] theorem State.setLink_beacons (s : State) (x : Link) :
    (s.setLink x).beacons = s.beacons := rfl
@[simp] theorem State.setLink_link (s : State) (x : Link) :
    (s.setLink x).link = x := rfl
@[simp] theorem State.setLink_store (s : State) (x : Link) :
    (s.setLink x).store = s.store := rfl
@[simp] theorem State.setLink_setLink (s : State) (x y : Link) :
    (s.setLink x).setLink y = s.setLink y := rfl
@[simp] theorem State.setLink_self (s : State) : s.setLink s.link = s := rfl

/-! ### After `setStore` -/

@[simp] theorem State.setStore_pending (s : State) (x : Store) :
    (s.setStore x).pending = s.pending := rfl
@[simp] theorem State.setStore_clock (s : State) (x : Store) :
    (s.setStore x).clock = s.clock := rfl
@[simp] theorem State.setStore_book (s : State) (x : Store) :
    (s.setStore x).book = s.book := rfl
@[simp] theorem State.setStore_registry (s : State) (x : Store) :
    (s.setStore x).registry = s.registry := rfl
@[simp] theorem State.setStore_ladders (s : State) (x : Store) :
    (s.setStore x).ladders = s.ladders := rfl
@[simp] theorem State.setStore_acks (s : State) (x : Store) :
    (s.setStore x).acks = s.acks := rfl
@[simp] theorem State.setStore_sched (s : State) (x : Store) :
    (s.setStore x).sched = s.sched := rfl
@[simp] theorem State.setStore_line (s : State) (x : Store) :
    (s.setStore x).line = s.line := rfl
@[simp] theorem State.setStore_beacons (s : State) (x : Store) :
    (s.setStore x).beacons = s.beacons := rfl
@[simp] theorem State.setStore_link (s : State) (x : Store) :
    (s.setStore x).link = s.link := rfl
@[simp] theorem State.setStore_store (s : State) (x : Store) :
    (s.setStore x).store = x := rfl
@[simp] theorem State.setStore_setStore (s : State) (x y : Store) :
    (s.setStore x).setStore y = s.setStore y := rfl
@[simp] theorem State.setStore_self (s : State) : s.setStore s.store = s := rfl

end Sys2Proof.Machine
end

