-- ==== Sys2Proof/Laws/Tables.lean ====
section
/-!
SUPPORT. The laws of numbered tables, and reading one record after another record or block was written.
-/

namespace Sys2Proof

variable {α : Type} {n : Nat}

/-- A record that was written reads back. -/
theorem row_setRow_self (t : Vector α n) (k : Nat) (x d : α) (h1 : 1 ≤ k) (h2 : k ≤ n) :
    row (setRow t k x) k d = x := by
  have hk : k ≠ 0 := by omega
  have hlt : k - 1 < n := by omega
  simp [row, setRow, hk, Vector.toList_setIfInBounds, List.getD, hlt]

/-- Writing one record leaves the others alone. -/
theorem row_setRow_ne (t : Vector α n) (k j : Nat) (x d : α) (h : j ≠ k) :
    row (setRow t k x) j d = row t j d := by
  unfold row setRow
  by_cases hk : k = 0
  · simp [hk]
  · by_cases hj : j = 0
    · simp [hj]
    · have hne : k - 1 ≠ j - 1 := by omega
      simp [hk, hj, Vector.toList_setIfInBounds, List.getD, List.getElem?_set_ne hne]

/-- A number the table does not have reads as the given value. -/
theorem row_outside (t : Vector α n) (k : Nat) (d : α) (h : k = 0 ∨ n < k) : row t k d = d := by
  unfold row
  by_cases hk : k = 0
  · simp [hk]
  · have : n ≤ k - 1 := by omega
    simp [hk, List.getD, this]

/-- Writing a number the table does not have changes nothing. -/
theorem setRow_outside (t : Vector α n) (k : Nat) (x : α) (h : k = 0 ∨ n < k) : setRow t k x = t := by
  unfold setRow
  by_cases hk : k = 0
  · simp [hk]
  · have : ¬ k - 1 < n := by omega
    simp [hk, Vector.setIfInBounds, Array.setIfInBounds, this]

/-- What record `j` reads as after record `k` was written. -/
theorem row_setRow (t : Vector α n) (k j : Nat) (x d : α) :
    row (setRow t k x) j d = if j = k ∧ 1 ≤ k ∧ k ≤ n then x else row t j d := by
  by_cases h : j = k
  · subst h
    by_cases hr : 1 ≤ j ∧ j ≤ n
    · rw [row_setRow_self t j x d hr.1 hr.2, if_pos ⟨rfl, hr⟩]
    · rw [setRow_outside t j x (by omega), if_neg (by tauto)]
  · rw [row_setRow_ne t k j x d h, if_neg (by tauto)]

/-- Writing back what a record holds changes nothing. -/
theorem setRow_row (t : Vector α n) (k : Nat) (d : α) : setRow t k (row t k d) = t := by
  by_cases hr : 1 ≤ k ∧ k ≤ n
  · have hk : k ≠ 0 := by omega
    have hlt : k - 1 < n := by omega
    ext i hi
    simp only [setRow, row, hk, if_false, Vector.getElem_setIfInBounds]
    split
    · next h => subst h; simp [List.getD, hi]
    · rfl
  · exact setRow_outside t k _ (by omega)

/-- What holds of the value for a missing record and of every record of the table holds of whatever a number
gives. -/
theorem row_all {P : α → Prop} (t : Vector α n) (d : α) (hd : P d) (h : ∀ x ∈ t.toList, P x) (k : Nat) :
    P (row t k d) := by
  unfold row
  split
  · exact hd
  · rw [List.getD_eq_getElem?_getD]
    cases e : t.toList[k - 1]? with
    | none => exact hd
    | some x => exact h x (List.mem_of_getElem? e)

/-- Every record of a table of equal records is that record. -/
theorem row_replicate (k : Nat) (x : α) : row (Vector.replicate n x) k x = x := by
  unfold row
  by_cases hk : k = 0
  · simp [hk]
  · by_cases h : k - 1 < n
    · simp [hk, List.getD, h]
    · simp [hk, List.getD]

/-- Record `k` of a table whose records were all mapped. -/
theorem row_map {β : Type} (f : α → β) (t : Vector α n) (k : Nat) (d : α) :
    row (t.map f) k (f d) = f (row t k d) := by
  unfold row
  by_cases hk : k = 0
  · simp [hk]
  · simp only [hk, if_false, Vector.toList_map, List.getD, List.getElem?_map]
    cases t.toList[k - 1]? <;> rfl

end Sys2Proof

namespace Sys2Proof.Machine

/-! ### `crew` after an update of another block -/

@[simp] theorem State.setPending_crew (s : State) (x : List Instr) (c : Nat) :
    (s.setPending x).crew c = s.crew c := rfl
@[simp] theorem State.setClock_crew (s : State) (x : Tick) (c : Nat) :
    (s.setClock x).crew c = s.crew c := rfl
@[simp] theorem State.setBook_crew (s : State) (x : CallBook) (c : Nat) :
    (s.setBook x).crew c = s.crew c := rfl
@[simp] theorem State.setLadders_crew (s : State) (x : Vector Ladder 16) (c : Nat) :
    (s.setLadders x).crew c = s.crew c := rfl
@[simp] theorem State.setAcks_crew (s : State) (x : List AckEntry) (c : Nat) :
    (s.setAcks x).crew c = s.crew c := rfl
@[simp] theorem State.setSched_crew (s : State) (x : Scheduler) (c : Nat) :
    (s.setSched x).crew c = s.crew c := rfl
@[simp] theorem State.setLine_crew (s : State) (x : Line) (c : Nat) :
    (s.setLine x).crew c = s.crew c := rfl
@[simp] theorem State.setBeacons_crew (s : State) (x : Vector Beacon 8) (c : Nat) :
    (s.setBeacons x).crew c = s.crew c := rfl
@[simp] theorem State.setLink_crew (s : State) (x : Link) (c : Nat) :
    (s.setLink x).crew c = s.crew c := rfl
@[simp] theorem State.setStore_crew (s : State) (x : Store) (c : Nat) :
    (s.setStore x).crew c = s.crew c := rfl

/-! ### `pool` after an update of another block -/

@[simp] theorem State.setPending_pool (s : State) (x : List Instr) (p : Nat) :
    (s.setPending x).pool p = s.pool p := rfl
@[simp] theorem State.setClock_pool (s : State) (x : Tick) (p : Nat) :
    (s.setClock x).pool p = s.pool p := rfl
@[simp] theorem State.setBook_pool (s : State) (x : CallBook) (p : Nat) :
    (s.setBook x).pool p = s.pool p := rfl
@[simp] theorem State.setLadders_pool (s : State) (x : Vector Ladder 16) (p : Nat) :
    (s.setLadders x).pool p = s.pool p := rfl
@[simp] theorem State.setAcks_pool (s : State) (x : List AckEntry) (p : Nat) :
    (s.setAcks x).pool p = s.pool p := rfl
@[simp] theorem State.setSched_pool (s : State) (x : Scheduler) (p : Nat) :
    (s.setSched x).pool p = s.pool p := rfl
@[simp] theorem State.setLine_pool (s : State) (x : Line) (p : Nat) :
    (s.setLine x).pool p = s.pool p := rfl
@[simp] theorem State.setBeacons_pool (s : State) (x : Vector Beacon 8) (p : Nat) :
    (s.setBeacons x).pool p = s.pool p := rfl
@[simp] theorem State.setLink_pool (s : State) (x : Link) (p : Nat) :
    (s.setLink x).pool p = s.pool p := rfl
@[simp] theorem State.setStore_pool (s : State) (x : Store) (p : Nat) :
    (s.setStore x).pool p = s.pool p := rfl

/-! ### `ladder` after an update of another block -/

@[simp] theorem State.setPending_ladder (s : State) (x : List Instr) (l : Nat) :
    (s.setPending x).ladder l = s.ladder l := rfl
@[simp] theorem State.setClock_ladder (s : State) (x : Tick) (l : Nat) :
    (s.setClock x).ladder l = s.ladder l := rfl
@[simp] theorem State.setBook_ladder (s : State) (x : CallBook) (l : Nat) :
    (s.setBook x).ladder l = s.ladder l := rfl
@[simp] theorem State.setRegistry_ladder (s : State) (x : Registry) (l : Nat) :
    (s.setRegistry x).ladder l = s.ladder l := rfl
@[simp] theorem State.setAcks_ladder (s : State) (x : List AckEntry) (l : Nat) :
    (s.setAcks x).ladder l = s.ladder l := rfl
@[simp] theorem State.setSched_ladder (s : State) (x : Scheduler) (l : Nat) :
    (s.setSched x).ladder l = s.ladder l := rfl
@[simp] theorem State.setLine_ladder (s : State) (x : Line) (l : Nat) :
    (s.setLine x).ladder l = s.ladder l := rfl
@[simp] theorem State.setBeacons_ladder (s : State) (x : Vector Beacon 8) (l : Nat) :
    (s.setBeacons x).ladder l = s.ladder l := rfl
@[simp] theorem State.setLink_ladder (s : State) (x : Link) (l : Nat) :
    (s.setLink x).ladder l = s.ladder l := rfl
@[simp] theorem State.setStore_ladder (s : State) (x : Store) (l : Nat) :
    (s.setStore x).ladder l = s.ladder l := rfl

/-! ### `station` after an update of another block -/

@[simp] theorem State.setPending_station (s : State) (x : List Instr) (st : Nat) :
    (s.setPending x).station st = s.station st := rfl
@[simp] theorem State.setClock_station (s : State) (x : Tick) (st : Nat) :
    (s.setClock x).station st = s.station st := rfl
@[simp] theorem State.setBook_station (s : State) (x : CallBook) (st : Nat) :
    (s.setBook x).station st = s.station st := rfl
@[simp] theorem State.setRegistry_station (s : State) (x : Registry) (st : Nat) :
    (s.setRegistry x).station st = s.station st := rfl
@[simp] theorem State.setLadders_station (s : State) (x : Vector Ladder 16) (st : Nat) :
    (s.setLadders x).station st = s.station st := rfl
@[simp] theorem State.setAcks_station (s : State) (x : List AckEntry) (st : Nat) :
    (s.setAcks x).station st = s.station st := rfl
@[simp] theorem State.setSched_station (s : State) (x : Scheduler) (st : Nat) :
    (s.setSched x).station st = s.station st := rfl
@[simp] theorem State.setBeacons_station (s : State) (x : Vector Beacon 8) (st : Nat) :
    (s.setBeacons x).station st = s.station st := rfl
@[simp] theorem State.setLink_station (s : State) (x : Link) (st : Nat) :
    (s.setLink x).station st = s.station st := rfl
@[simp] theorem State.setStore_station (s : State) (x : Store) (st : Nat) :
    (s.setStore x).station st = s.station st := rfl

/-! ### `queue` after an update of another block -/

@[simp] theorem State.setPending_queue (s : State) (x : List Instr) (st : Nat) :
    (s.setPending x).queue st = s.queue st := rfl
@[simp] theorem State.setClock_queue (s : State) (x : Tick) (st : Nat) :
    (s.setClock x).queue st = s.queue st := rfl
@[simp] theorem State.setBook_queue (s : State) (x : CallBook) (st : Nat) :
    (s.setBook x).queue st = s.queue st := rfl
@[simp] theorem State.setRegistry_queue (s : State) (x : Registry) (st : Nat) :
    (s.setRegistry x).queue st = s.queue st := rfl
@[simp] theorem State.setLadders_queue (s : State) (x : Vector Ladder 16) (st : Nat) :
    (s.setLadders x).queue st = s.queue st := rfl
@[simp] theorem State.setAcks_queue (s : State) (x : List AckEntry) (st : Nat) :
    (s.setAcks x).queue st = s.queue st := rfl
@[simp] theorem State.setLine_queue (s : State) (x : Line) (st : Nat) :
    (s.setLine x).queue st = s.queue st := rfl
@[simp] theorem State.setBeacons_queue (s : State) (x : Vector Beacon 8) (st : Nat) :
    (s.setBeacons x).queue st = s.queue st := rfl
@[simp] theorem State.setLink_queue (s : State) (x : Link) (st : Nat) :
    (s.setLink x).queue st = s.queue st := rfl
@[simp] theorem State.setStore_queue (s : State) (x : Store) (st : Nat) :
    (s.setStore x).queue st = s.queue st := rfl

/-! ### `group` after an update of another block -/

@[simp] theorem State.setPending_group (s : State) (x : List Instr) (g : Nat) :
    (s.setPending x).group g = s.group g := rfl
@[simp] theorem State.setClock_group (s : State) (x : Tick) (g : Nat) :
    (s.setClock x).group g = s.group g := rfl
@[simp] theorem State.setBook_group (s : State) (x : CallBook) (g : Nat) :
    (s.setBook x).group g = s.group g := rfl
@[simp] theorem State.setRegistry_group (s : State) (x : Registry) (g : Nat) :
    (s.setRegistry x).group g = s.group g := rfl
@[simp] theorem State.setLadders_group (s : State) (x : Vector Ladder 16) (g : Nat) :
    (s.setLadders x).group g = s.group g := rfl
@[simp] theorem State.setAcks_group (s : State) (x : List AckEntry) (g : Nat) :
    (s.setAcks x).group g = s.group g := rfl
@[simp] theorem State.setLine_group (s : State) (x : Line) (g : Nat) :
    (s.setLine x).group g = s.group g := rfl
@[simp] theorem State.setBeacons_group (s : State) (x : Vector Beacon 8) (g : Nat) :
    (s.setBeacons x).group g = s.group g := rfl
@[simp] theorem State.setLink_group (s : State) (x : Link) (g : Nat) :
    (s.setLink x).group g = s.group g := rfl
@[simp] theorem State.setStore_group (s : State) (x : Store) (g : Nat) :
    (s.setStore x).group g = s.group g := rfl

/-! ### `beacon` after an update of another block -/

@[simp] theorem State.setPending_beacon (s : State) (x : List Instr) (z : Nat) :
    (s.setPending x).beacon z = s.beacon z := rfl
@[simp] theorem State.setClock_beacon (s : State) (x : Tick) (z : Nat) :
    (s.setClock x).beacon z = s.beacon z := rfl
@[simp] theorem State.setBook_beacon (s : State) (x : CallBook) (z : Nat) :
    (s.setBook x).beacon z = s.beacon z := rfl
@[simp] theorem State.setRegistry_beacon (s : State) (x : Registry) (z : Nat) :
    (s.setRegistry x).beacon z = s.beacon z := rfl
@[simp] theorem State.setLadders_beacon (s : State) (x : Vector Ladder 16) (z : Nat) :
    (s.setLadders x).beacon z = s.beacon z := rfl
@[simp] theorem State.setAcks_beacon (s : State) (x : List AckEntry) (z : Nat) :
    (s.setAcks x).beacon z = s.beacon z := rfl
@[simp] theorem State.setSched_beacon (s : State) (x : Scheduler) (z : Nat) :
    (s.setSched x).beacon z = s.beacon z := rfl
@[simp] theorem State.setLine_beacon (s : State) (x : Line) (z : Nat) :
    (s.setLine x).beacon z = s.beacon z := rfl
@[simp] theorem State.setLink_beacon (s : State) (x : Link) (z : Nat) :
    (s.setLink x).beacon z = s.beacon z := rfl
@[simp] theorem State.setStore_beacon (s : State) (x : Store) (z : Nat) :
    (s.setStore x).beacon z = s.beacon z := rfl

/-! ### `pagerEntry?` after an update of another block -/

@[simp] theorem State.setPending_pagerEntry (s : State) (x : List Instr) (p : Nat) :
    (s.setPending x).pagerEntry? p = s.pagerEntry? p := rfl
@[simp] theorem State.setClock_pagerEntry (s : State) (x : Tick) (p : Nat) :
    (s.setClock x).pagerEntry? p = s.pagerEntry? p := rfl
@[simp] theorem State.setBook_pagerEntry (s : State) (x : CallBook) (p : Nat) :
    (s.setBook x).pagerEntry? p = s.pagerEntry? p := rfl
@[simp] theorem State.setLadders_pagerEntry (s : State) (x : Vector Ladder 16) (p : Nat) :
    (s.setLadders x).pagerEntry? p = s.pagerEntry? p := rfl
@[simp] theorem State.setAcks_pagerEntry (s : State) (x : List AckEntry) (p : Nat) :
    (s.setAcks x).pagerEntry? p = s.pagerEntry? p := rfl
@[simp] theorem State.setSched_pagerEntry (s : State) (x : Scheduler) (p : Nat) :
    (s.setSched x).pagerEntry? p = s.pagerEntry? p := rfl
@[simp] theorem State.setLine_pagerEntry (s : State) (x : Line) (p : Nat) :
    (s.setLine x).pagerEntry? p = s.pagerEntry? p := rfl
@[simp] theorem State.setBeacons_pagerEntry (s : State) (x : Vector Beacon 8) (p : Nat) :
    (s.setBeacons x).pagerEntry? p = s.pagerEntry? p := rfl
@[simp] theorem State.setLink_pagerEntry (s : State) (x : Link) (p : Nat) :
    (s.setLink x).pagerEntry? p = s.pagerEntry? p := rfl
@[simp] theorem State.setStore_pagerEntry (s : State) (x : Store) (p : Nat) :
    (s.setStore x).pagerEntry? p = s.pagerEntry? p := rfl

/-! ### `findCall` after an update of another block -/

@[simp] theorem State.setPending_findCall (s : State) (x : List Instr) (n : Nat) :
    (s.setPending x).findCall n = s.findCall n := rfl
@[simp] theorem State.setClock_findCall (s : State) (x : Tick) (n : Nat) :
    (s.setClock x).findCall n = s.findCall n := rfl
@[simp] theorem State.setRegistry_findCall (s : State) (x : Registry) (n : Nat) :
    (s.setRegistry x).findCall n = s.findCall n := rfl
@[simp] theorem State.setLadders_findCall (s : State) (x : Vector Ladder 16) (n : Nat) :
    (s.setLadders x).findCall n = s.findCall n := rfl
@[simp] theorem State.setAcks_findCall (s : State) (x : List AckEntry) (n : Nat) :
    (s.setAcks x).findCall n = s.findCall n := rfl
@[simp] theorem State.setSched_findCall (s : State) (x : Scheduler) (n : Nat) :
    (s.setSched x).findCall n = s.findCall n := rfl
@[simp] theorem State.setLine_findCall (s : State) (x : Line) (n : Nat) :
    (s.setLine x).findCall n = s.findCall n := rfl
@[simp] theorem State.setBeacons_findCall (s : State) (x : Vector Beacon 8) (n : Nat) :
    (s.setBeacons x).findCall n = s.findCall n := rfl
@[simp] theorem State.setLink_findCall (s : State) (x : Link) (n : Nat) :
    (s.setLink x).findCall n = s.findCall n := rfl
@[simp] theorem State.setStore_findCall (s : State) (x : Store) (n : Nat) :
    (s.setStore x).findCall n = s.findCall n := rfl

/-! ### After `putCrew` -/

@[simp] theorem State.putCrew_pending (s : State) (c : Nat) (x : Crew) : (s.putCrew c x).pending = s.pending := rfl
@[simp] theorem State.putCrew_clock (s : State) (c : Nat) (x : Crew) : (s.putCrew c x).clock = s.clock := rfl
@[simp] theorem State.putCrew_book (s : State) (c : Nat) (x : Crew) : (s.putCrew c x).book = s.book := rfl
@[simp] theorem State.putCrew_ladders (s : State) (c : Nat) (x : Crew) : (s.putCrew c x).ladders = s.ladders := rfl
@[simp] theorem State.putCrew_acks (s : State) (c : Nat) (x : Crew) : (s.putCrew c x).acks = s.acks := rfl
@[simp] theorem State.putCrew_sched (s : State) (c : Nat) (x : Crew) : (s.putCrew c x).sched = s.sched := rfl
@[simp] theorem State.putCrew_line (s : State) (c : Nat) (x : Crew) : (s.putCrew c x).line = s.line := rfl
@[simp] theorem State.putCrew_beacons (s : State) (c : Nat) (x : Crew) : (s.putCrew c x).beacons = s.beacons := rfl
@[simp] theorem State.putCrew_link (s : State) (c : Nat) (x : Crew) : (s.putCrew c x).link = s.link := rfl
@[simp] theorem State.putCrew_store (s : State) (c : Nat) (x : Crew) : (s.putCrew c x).store = s.store := rfl
@[simp] theorem State.putCrew_pool (s : State) (c k : Nat) (x : Crew) :
    (s.putCrew c x).pool k = s.pool k := rfl
@[simp] theorem State.putCrew_ladder (s : State) (c k : Nat) (x : Crew) :
    (s.putCrew c x).ladder k = s.ladder k := rfl
@[simp] theorem State.putCrew_station (s : State) (c k : Nat) (x : Crew) :
    (s.putCrew c x).station k = s.station k := rfl
@[simp] theorem State.putCrew_queue (s : State) (c k : Nat) (x : Crew) :
    (s.putCrew c x).queue k = s.queue k := rfl
@[simp] theorem State.putCrew_group (s : State) (c k : Nat) (x : Crew) :
    (s.putCrew c x).group k = s.group k := rfl
@[simp] theorem State.putCrew_beacon (s : State) (c k : Nat) (x : Crew) :
    (s.putCrew c x).beacon k = s.beacon k := rfl
@[simp] theorem State.putCrew_pagerEntry (s : State) (c k : Nat) (x : Crew) :
    (s.putCrew c x).pagerEntry? k = s.pagerEntry? k := rfl
@[simp] theorem State.putCrew_findCall (s : State) (c k : Nat) (x : Crew) :
    (s.putCrew c x).findCall k = s.findCall k := rfl
theorem State.putCrew_crew_eq (s : State) (c k : Nat) (x : Crew) :
    (s.putCrew c x).crew k = if k = c ∧ 1 ≤ c ∧ c ≤ 48 then x else s.crew k :=
  row_setRow _ _ _ _ _

/-! ### After `putPool` -/

@[simp] theorem State.putPool_pending (s : State) (p : Nat) (x : Pool) : (s.putPool p x).pending = s.pending := rfl
@[simp] theorem State.putPool_clock (s : State) (p : Nat) (x : Pool) : (s.putPool p x).clock = s.clock := rfl
@[simp] theorem State.putPool_book (s : State) (p : Nat) (x : Pool) : (s.putPool p x).book = s.book := rfl
@[simp] theorem State.putPool_ladders (s : State) (p : Nat) (x : Pool) : (s.putPool p x).ladders = s.ladders := rfl
@[simp] theorem State.putPool_acks (s : State) (p : Nat) (x : Pool) : (s.putPool p x).acks = s.acks := rfl
@[simp] theorem State.putPool_sched (s : State) (p : Nat) (x : Pool) : (s.putPool p x).sched = s.sched := rfl
@[simp] theorem State.putPool_line (s : State) (p : Nat) (x : Pool) : (s.putPool p x).line = s.line := rfl
@[simp] theorem State.putPool_beacons (s : State) (p : Nat) (x : Pool) : (s.putPool p x).beacons = s.beacons := rfl
@[simp] theorem State.putPool_link (s : State) (p : Nat) (x : Pool) : (s.putPool p x).link = s.link := rfl
@[simp] theorem State.putPool_store (s : State) (p : Nat) (x : Pool) : (s.putPool p x).store = s.store := rfl
@[simp] theorem State.putPool_crew (s : State) (p k : Nat) (x : Pool) :
    (s.putPool p x).crew k = s.crew k := rfl
@[simp] theorem State.putPool_ladder (s : State) (p k : Nat) (x : Pool) :
    (s.putPool p x).ladder k = s.ladder k := rfl
@[simp] theorem State.putPool_station (s : State) (p k : Nat) (x : Pool) :
    (s.putPool p x).station k = s.station k := rfl
@[simp] theorem State.putPool_queue (s : State) (p k : Nat) (x : Pool) :
    (s.putPool p x).queue k = s.queue k := rfl
@[simp] theorem State.putPool_group (s : State) (p k : Nat) (x : Pool) :
    (s.putPool p x).group k = s.group k := rfl
@[simp] theorem State.putPool_beacon (s : State) (p k : Nat) (x : Pool) :
    (s.putPool p x).beacon k = s.beacon k := rfl
@[simp] theorem State.putPool_pagerEntry (s : State) (p k : Nat) (x : Pool) :
    (s.putPool p x).pagerEntry? k = s.pagerEntry? k := rfl
@[simp] theorem State.putPool_findCall (s : State) (p k : Nat) (x : Pool) :
    (s.putPool p x).findCall k = s.findCall k := rfl
theorem State.putPool_pool_eq (s : State) (p k : Nat) (x : Pool) :
    (s.putPool p x).pool k = if k = p ∧ 1 ≤ p ∧ p ≤ 16 then x else s.pool k :=
  row_setRow _ _ _ _ _

/-! ### After `putStation` -/

@[simp] theorem State.putStation_pending (s : State) (st : Nat) (x : Station) : (s.putStation st x).pending = s.pending := rfl
@[simp] theorem State.putStation_clock (s : State) (st : Nat) (x : Station) : (s.putStation st x).clock = s.clock := rfl
@[simp] theorem State.putStation_book (s : State) (st : Nat) (x : Station) : (s.putStation st x).book = s.book := rfl
@[simp] theorem State.putStation_registry (s : State) (st : Nat) (x : Station) : (s.putStation st x).registry = s.registry := rfl
@[simp] theorem State.putStation_ladders (s : State) (st : Nat) (x : Station) : (s.putStation st x).ladders = s.ladders := rfl
@[simp] theorem State.putStation_acks (s : State) (st : Nat) (x : Station) : (s.putStation st x).acks = s.acks := rfl
@[simp] theorem State.putStation_sched (s : State) (st : Nat) (x : Station) : (s.putStation st x).sched = s.sched := rfl
@[simp] theorem State.putStation_beacons (s : State) (st : Nat) (x : Station) : (s.putStation st x).beacons = s.beacons := rfl
@[simp] theorem State.putStation_link (s : State) (st : Nat) (x : Station) : (s.putStation st x).link = s.link := rfl
@[simp] theorem State.putStation_store (s : State) (st : Nat) (x : Station) : (s.putStation st x).store = s.store := rfl
@[simp] theorem State.putStation_crew (s : State) (st k : Nat) (x : Station) :
    (s.putStation st x).crew k = s.crew k := rfl
@[simp] theorem State.putStation_pool (s : State) (st k : Nat) (x : Station) :
    (s.putStation st x).pool k = s.pool k := rfl
@[simp] theorem State.putStation_ladder (s : State) (st k : Nat) (x : Station) :
    (s.putStation st x).ladder k = s.ladder k := rfl
@[simp] theorem State.putStation_queue (s : State) (st k : Nat) (x : Station) :
    (s.putStation st x).queue k = s.queue k := rfl
@[simp] theorem State.putStation_group (s : State) (st k : Nat) (x : Station) :
    (s.putStation st x).group k = s.group k := rfl
@[simp] theorem State.putStation_beacon (s : State) (st k : Nat) (x : Station) :
    (s.putStation st x).beacon k = s.beacon k := rfl
@[simp] theorem State.putStation_pagerEntry (s : State) (st k : Nat) (x : Station) :
    (s.putStation st x).pagerEntry? k = s.pagerEntry? k := rfl
@[simp] theorem State.putStation_findCall (s : State) (st k : Nat) (x : Station) :
    (s.putStation st x).findCall k = s.findCall k := rfl
theorem State.putStation_station_eq (s : State) (st k : Nat) (x : Station) :
    (s.putStation st x).station k = if k = st ∧ 1 ≤ st ∧ st ≤ 12 then x else s.station k :=
  row_setRow _ _ _ _ _

/-! ### After `putQueue` -/

@[simp] theorem State.putQueue_pending (s : State) (st : Nat) (x : StationQueue) : (s.putQueue st x).pending = s.pending := rfl
@[simp] theorem State.putQueue_clock (s : State) (st : Nat) (x : StationQueue) : (s.putQueue st x).clock = s.clock := rfl
@[simp] theorem State.putQueue_book (s : State) (st : Nat) (x : StationQueue) : (s.putQueue st x).book = s.book := rfl
@[simp] theorem State.putQueue_registry (s : State) (st : Nat) (x : StationQueue) : (s.putQueue st x).registry = s.registry := rfl
@[simp] theorem State.putQueue_ladders (s : State) (st : Nat) (x : StationQueue) : (s.putQueue st x).ladders = s.ladders := rfl
@[simp] theorem State.putQueue_acks (s : State) (st : Nat) (x : StationQueue) : (s.putQueue st x).acks = s.acks := rfl
@[simp] theorem State.putQueue_line (s : State) (st : Nat) (x : StationQueue) : (s.putQueue st x).line = s.line := rfl
@[simp] theorem State.putQueue_beacons (s : State) (st : Nat) (x : StationQueue) : (s.putQueue st x).beacons = s.beacons := rfl
@[simp] theorem State.putQueue_link (s : State) (st : Nat) (x : StationQueue) : (s.putQueue st x).link = s.link := rfl
@[simp] theorem State.putQueue_store (s : State) (st : Nat) (x : StationQueue) : (s.putQueue st x).store = s.store := rfl
@[simp] theorem State.putQueue_crew (s : State) (st k : Nat) (x : StationQueue) :
    (s.putQueue st x).crew k = s.crew k := rfl
@[simp] theorem State.putQueue_pool (s : State) (st k : Nat) (x : StationQueue) :
    (s.putQueue st x).pool k = s.pool k := rfl
@[simp] theorem State.putQueue_ladder (s : State) (st k : Nat) (x : StationQueue) :
    (s.putQueue st x).ladder k = s.ladder k := rfl
@[simp] theorem State.putQueue_station (s : State) (st k : Nat) (x : StationQueue) :
    (s.putQueue st x).station k = s.station k := rfl
@[simp] theorem State.putQueue_group (s : State) (st k : Nat) (x : StationQueue) :
    (s.putQueue st x).group k = s.group k := rfl
@[simp] theorem State.putQueue_beacon (s : State) (st k : Nat) (x : StationQueue) :
    (s.putQueue st x).beacon k = s.beacon k := rfl
@[simp] theorem State.putQueue_pagerEntry (s : State) (st k : Nat) (x : StationQueue) :
    (s.putQueue st x).pagerEntry? k = s.pagerEntry? k := rfl
@[simp] theorem State.putQueue_findCall (s : State) (st k : Nat) (x : StationQueue) :
    (s.putQueue st x).findCall k = s.findCall k := rfl
theorem State.putQueue_queue_eq (s : State) (st k : Nat) (x : StationQueue) :
    (s.putQueue st x).queue k = if k = st ∧ 1 ≤ st ∧ st ≤ 12 then x else s.queue k :=
  row_setRow _ _ _ _ _

/-! ### After `putGroup` -/

@[simp] theorem State.putGroup_pending (s : State) (g : Nat) (x : Group) : (s.putGroup g x).pending = s.pending := rfl
@[simp] theorem State.putGroup_clock (s : State) (g : Nat) (x : Group) : (s.putGroup g x).clock = s.clock := rfl
@[simp] theorem State.putGroup_book (s : State) (g : Nat) (x : Group) : (s.putGroup g x).book = s.book := rfl
@[simp] theorem State.putGroup_registry (s : State) (g : Nat) (x : Group) : (s.putGroup g x).registry = s.registry := rfl
@[simp] theorem State.putGroup_ladders (s : State) (g : Nat) (x : Group) : (s.putGroup g x).ladders = s.ladders := rfl
@[simp] theorem State.putGroup_acks (s : State) (g : Nat) (x : Group) : (s.putGroup g x).acks = s.acks := rfl
@[simp] theorem State.putGroup_line (s : State) (g : Nat) (x : Group) : (s.putGroup g x).line = s.line := rfl
@[simp] theorem State.putGroup_beacons (s : State) (g : Nat) (x : Group) : (s.putGroup g x).beacons = s.beacons := rfl
@[simp] theorem State.putGroup_link (s : State) (g : Nat) (x : Group) : (s.putGroup g x).link = s.link := rfl
@[simp] theorem State.putGroup_store (s : State) (g : Nat) (x : Group) : (s.putGroup g x).store = s.store := rfl
@[simp] theorem State.putGroup_crew (s : State) (g k : Nat) (x : Group) :
    (s.putGroup g x).crew k = s.crew k := rfl
@[simp] theorem State.putGroup_pool (s : State) (g k : Nat) (x : Group) :
    (s.putGroup g x).pool k = s.pool k := rfl
@[simp] theorem State.putGroup_ladder (s : State) (g k : Nat) (x : Group) :
    (s.putGroup g x).ladder k = s.ladder k := rfl
@[simp] theorem State.putGroup_station (s : State) (g k : Nat) (x : Group) :
    (s.putGroup g x).station k = s.station k := rfl
@[simp] theorem State.putGroup_queue (s : State) (g k : Nat) (x : Group) :
    (s.putGroup g x).queue k = s.queue k := rfl
@[simp] theorem State.putGroup_beacon (s : State) (g k : Nat) (x : Group) :
    (s.putGroup g x).beacon k = s.beacon k := rfl
@[simp] theorem State.putGroup_pagerEntry (s : State) (g k : Nat) (x : Group) :
    (s.putGroup g x).pagerEntry? k = s.pagerEntry? k := rfl
@[simp] theorem State.putGroup_findCall (s : State) (g k : Nat) (x : Group) :
    (s.putGroup g x).findCall k = s.findCall k := rfl
theorem State.putGroup_group_eq (s : State) (g k : Nat) (x : Group) :
    (s.putGroup g x).group k = if k = g ∧ 1 ≤ g ∧ g ≤ 4 then x else s.group k :=
  row_setRow _ _ _ _ _

/-! ### After `putBeacon` -/

@[simp] theorem State.putBeacon_pending (s : State) (z : Nat) (x : Beacon) : (s.putBeacon z x).pending = s.pending := rfl
@[simp] theorem State.putBeacon_clock (s : State) (z : Nat) (x : Beacon) : (s.putBeacon z x).clock = s.clock := rfl
@[simp] theorem State.putBeacon_book (s : State) (z : Nat) (x : Beacon) : (s.putBeacon z x).book = s.book := rfl
@[simp] theorem State.putBeacon_registry (s : State) (z : Nat) (x : Beacon) : (s.putBeacon z x).registry = s.registry := rfl
@[simp] theorem State.putBeacon_ladders (s : State) (z : Nat) (x : Beacon) : (s.putBeacon z x).ladders = s.ladders := rfl
@[simp] theorem State.putBeacon_acks (s : State) (z : Nat) (x : Beacon) : (s.putBeacon z x).acks = s.acks := rfl
@[simp] theorem State.putBeacon_sched (s : State) (z : Nat) (x : Beacon) : (s.putBeacon z x).sched = s.sched := rfl
@[simp] theorem State.putBeacon_line (s : State) (z : Nat) (x : Beacon) : (s.putBeacon z x).line = s.line := rfl
@[simp] theorem State.putBeacon_link (s : State) (z : Nat) (x : Beacon) : (s.putBeacon z x).link = s.link := rfl
@[simp] theorem State.putBeacon_store (s : State) (z : Nat) (x : Beacon) : (s.putBeacon z x).store = s.store := rfl
@[simp] theorem State.putBeacon_crew (s : State) (z k : Nat) (x : Beacon) :
    (s.putBeacon z x).crew k = s.crew k := rfl
@[simp] theorem State.putBeacon_pool (s : State) (z k : Nat) (x : Beacon) :
    (s.putBeacon z x).pool k = s.pool k := rfl
@[simp] theorem State.putBeacon_ladder (s : State) (z k : Nat) (x : Beacon) :
    (s.putBeacon z x).ladder k = s.ladder k := rfl
@[simp] theorem State.putBeacon_station (s : State) (z k : Nat) (x : Beacon) :
    (s.putBeacon z x).station k = s.station k := rfl
@[simp] theorem State.putBeacon_queue (s : State) (z k : Nat) (x : Beacon) :
    (s.putBeacon z x).queue k = s.queue k := rfl
@[simp] theorem State.putBeacon_group (s : State) (z k : Nat) (x : Beacon) :
    (s.putBeacon z x).group k = s.group k := rfl
@[simp] theorem State.putBeacon_pagerEntry (s : State) (z k : Nat) (x : Beacon) :
    (s.putBeacon z x).pagerEntry? k = s.pagerEntry? k := rfl
@[simp] theorem State.putBeacon_findCall (s : State) (z k : Nat) (x : Beacon) :
    (s.putBeacon z x).findCall k = s.findCall k := rfl
theorem State.putBeacon_beacon_eq (s : State) (z k : Nat) (x : Beacon) :
    (s.putBeacon z x).beacon k = if k = z ∧ 1 ≤ z ∧ z ≤ 8 then x else s.beacon k :=
  row_setRow _ _ _ _ _

@[simp] theorem State.putCrew_pools (s : State) (c : Nat) (x : Crew) :
    (s.putCrew c x).registry.pools = s.registry.pools := rfl
@[simp] theorem State.putCrew_directory (s : State) (c : Nat) (x : Crew) :
    (s.putCrew c x).registry.directory = s.registry.directory := rfl
@[simp] theorem State.putPool_crews (s : State) (p : Nat) (x : Pool) :
    (s.putPool p x).registry.crews = s.registry.crews := rfl
@[simp] theorem State.putPool_directory (s : State) (p : Nat) (x : Pool) :
    (s.putPool p x).registry.directory = s.registry.directory := rfl
@[simp] theorem State.putStation_followUps (s : State) (st : Nat) (x : Station) :
    (s.putStation st x).line.followUps = s.line.followUps := rfl
@[simp] theorem State.putStation_burstWaits (s : State) (st : Nat) (x : Station) :
    (s.putStation st x).line.burstWaits = s.line.burstWaits := rfl
@[simp] theorem State.putStation_exchange (s : State) (st : Nat) (x : Station) :
    (s.putStation st x).line.exchange = s.line.exchange := rfl
@[simp] theorem State.putQueue_groups (s : State) (st : Nat) (x : StationQueue) :
    (s.putQueue st x).sched.groups = s.sched.groups := rfl
@[simp] theorem State.putQueue_burstId (s : State) (st : Nat) (x : StationQueue) :
    (s.putQueue st x).sched.burstId = s.sched.burstId := rfl
@[simp] theorem State.putGroup_queues (s : State) (g : Nat) (x : Group) :
    (s.putGroup g x).sched.queues = s.sched.queues := rfl
@[simp] theorem State.putGroup_burstId (s : State) (g : Nat) (x : Group) :
    (s.putGroup g x).sched.burstId = s.sched.burstId := rfl

end Sys2Proof.Machine
end

