-- ==== Sys2Proof/Laws/Calls.lean ====
section
/-!
SUPPORT. The laws of call records: finding, replacing, posting, and the beacon unit's part in writing one.
-/

namespace Sys2Proof.Machine

/-! ### The beacon unit touches beacons only -/

/-- What the beacon unit does to a beacon leaves every other block alone. -/
theorem State.actBeacon_rest (s : State) (z : Nat) :
    s.actBeacon z = s.setBeacons (s.actBeacon z).beacons := by
  unfold State.actBeacon
  dsimp only
  split <;> try rfl
  split <;> rfl

theorem State.leaveBeacon_rest (s : State) (n : Nat) (o : Option Nat) :
    s.leaveBeacon n o = s.setBeacons (s.leaveBeacon n o).beacons := by
  cases o with
  | none => rfl
  | some z => dsimp only [State.leaveBeacon]; rw [State.actBeacon_rest]; rfl

theorem State.joinBeacon_rest (s : State) (n : Nat) (o : Option Nat) :
    s.joinBeacon n o = s.setBeacons (s.joinBeacon n o).beacons := by
  cases o with
  | none => rfl
  | some z => dsimp only [State.joinBeacon]; rw [State.actBeacon_rest]; rfl

theorem State.moveHolder_rest (s : State) (n : Nat) (a b : Option Nat) :
    s.moveHolder n a b = s.setBeacons (s.moveHolder n a b).beacons := by
  unfold State.moveHolder
  split
  · rfl
  · rw [State.joinBeacon_rest, State.leaveBeacon_rest]; rfl

/-- Writing a call record back touches the record list and the beacons only. -/
theorem State.putCall_rest (s : State) (a b : Call) :
    s.putCall a b = (s.setBook { s.book with calls := replaceCall b s.book.calls }).setBeacons
      (s.putCall a b).beacons := by
  unfold State.putCall
  exact State.moveHolder_rest _ _ _ _


@[simp] theorem State.actBeacon_pending (s : State) (z : Nat) :
    (s.actBeacon z).pending = s.pending := by
  rw [State.actBeacon_rest]; rfl
@[simp] theorem State.actBeacon_clock (s : State) (z : Nat) :
    (s.actBeacon z).clock = s.clock := by
  rw [State.actBeacon_rest]; rfl
@[simp] theorem State.actBeacon_book (s : State) (z : Nat) :
    (s.actBeacon z).book = s.book := by
  rw [State.actBeacon_rest]; rfl
@[simp] theorem State.actBeacon_registry (s : State) (z : Nat) :
    (s.actBeacon z).registry = s.registry := by
  rw [State.actBeacon_rest]; rfl
@[simp] theorem State.actBeacon_ladders (s : State) (z : Nat) :
    (s.actBeacon z).ladders = s.ladders := by
  rw [State.actBeacon_rest]; rfl
@[simp] theorem State.actBeacon_acks (s : State) (z : Nat) :
    (s.actBeacon z).acks = s.acks := by
  rw [State.actBeacon_rest]; rfl
@[simp] theorem State.actBeacon_sched (s : State) (z : Nat) :
    (s.actBeacon z).sched = s.sched := by
  rw [State.actBeacon_rest]; rfl
@[simp] theorem State.actBeacon_line (s : State) (z : Nat) :
    (s.actBeacon z).line = s.line := by
  rw [State.actBeacon_rest]; rfl
@[simp] theorem State.actBeacon_link (s : State) (z : Nat) :
    (s.actBeacon z).link = s.link := by
  rw [State.actBeacon_rest]; rfl
@[simp] theorem State.actBeacon_store (s : State) (z : Nat) :
    (s.actBeacon z).store = s.store := by
  rw [State.actBeacon_rest]; rfl

@[simp] theorem State.moveHolder_pending (s : State) (n : Nat) (a b : Option Nat) :
    (s.moveHolder n a b).pending = s.pending := by
  rw [State.moveHolder_rest]; rfl
@[simp] theorem State.moveHolder_clock (s : State) (n : Nat) (a b : Option Nat) :
    (s.moveHolder n a b).clock = s.clock := by
  rw [State.moveHolder_rest]; rfl
@[simp] theorem State.moveHolder_book (s : State) (n : Nat) (a b : Option Nat) :
    (s.moveHolder n a b).book = s.book := by
  rw [State.moveHolder_rest]; rfl
@[simp] theorem State.moveHolder_registry (s : State) (n : Nat) (a b : Option Nat) :
    (s.moveHolder n a b).registry = s.registry := by
  rw [State.moveHolder_rest]; rfl
@[simp] theorem State.moveHolder_ladders (s : State) (n : Nat) (a b : Option Nat) :
    (s.moveHolder n a b).ladders = s.ladders := by
  rw [State.moveHolder_rest]; rfl
@[simp] theorem State.moveHolder_acks (s : State) (n : Nat) (a b : Option Nat) :
    (s.moveHolder n a b).acks = s.acks := by
  rw [State.moveHolder_rest]; rfl
@[simp] theorem State.moveHolder_sched (s : State) (n : Nat) (a b : Option Nat) :
    (s.moveHolder n a b).sched = s.sched := by
  rw [State.moveHolder_rest]; rfl
@[simp] theorem State.moveHolder_line (s : State) (n : Nat) (a b : Option Nat) :
    (s.moveHolder n a b).line = s.line := by
  rw [State.moveHolder_rest]; rfl
@[simp] theorem State.moveHolder_link (s : State) (n : Nat) (a b : Option Nat) :
    (s.moveHolder n a b).link = s.link := by
  rw [State.moveHolder_rest]; rfl
@[simp] theorem State.moveHolder_store (s : State) (n : Nat) (a b : Option Nat) :
    (s.moveHolder n a b).store = s.store := by
  rw [State.moveHolder_rest]; rfl

@[simp] theorem State.putCall_pending (s : State) (a b : Call) :
    (s.putCall a b).pending = s.pending := by
  rw [State.putCall_rest]; rfl
@[simp] theorem State.putCall_clock (s : State) (a b : Call) :
    (s.putCall a b).clock = s.clock := by
  rw [State.putCall_rest]; rfl
@[simp] theorem State.putCall_registry (s : State) (a b : Call) :
    (s.putCall a b).registry = s.registry := by
  rw [State.putCall_rest]; rfl
@[simp] theorem State.putCall_ladders (s : State) (a b : Call) :
    (s.putCall a b).ladders = s.ladders := by
  rw [State.putCall_rest]; rfl
@[simp] theorem State.putCall_acks (s : State) (a b : Call) :
    (s.putCall a b).acks = s.acks := by
  rw [State.putCall_rest]; rfl
@[simp] theorem State.putCall_sched (s : State) (a b : Call) :
    (s.putCall a b).sched = s.sched := by
  rw [State.putCall_rest]; rfl
@[simp] theorem State.putCall_line (s : State) (a b : Call) :
    (s.putCall a b).line = s.line := by
  rw [State.putCall_rest]; rfl
@[simp] theorem State.putCall_link (s : State) (a b : Call) :
    (s.putCall a b).link = s.link := by
  rw [State.putCall_rest]; rfl
@[simp] theorem State.putCall_store (s : State) (a b : Call) :
    (s.putCall a b).store = s.store := by
  rw [State.putCall_rest]; rfl

/-- Beacon `z` of two states has the same idle level and the same manual hold. -/
def SameSettings (s t : State) : Prop :=
  ∀ z, (t.beacon z).idle = (s.beacon z).idle ∧ (t.beacon z).hold = (s.beacon z).hold

theorem SameSettings.refl (s : State) : SameSettings s s := fun _ => ⟨rfl, rfl⟩

theorem SameSettings.trans {s t u : State} (h : SameSettings s t) (k : SameSettings t u) :
    SameSettings s u := fun z => ⟨(k z).1.trans (h z).1, (k z).2.trans (h z).2⟩

theorem SameSettings.of_put (s : State) (z : Nat) (x : Beacon) (hi : x.idle = (s.beacon z).idle)
    (hh : x.hold = (s.beacon z).hold) : SameSettings s (s.putBeacon z x) := by
  intro k
  rw [State.putBeacon_beacon_eq]
  split
  · next h => rw [h.1, hi, hh]; exact ⟨rfl, rfl⟩
  · exact ⟨rfl, rfl⟩

theorem SameSettings.restart (s : State) (z : Nat) (c : Cls) : SameSettings s (s.restartPhase z c) :=
  .of_put s z _ rfl rfl

theorem SameSettings.act (s : State) (z : Nat) : SameSettings s (s.actBeacon z) := by
  unfold State.actBeacon
  dsimp only
  split
  · exact .refl s
  · exact .of_put s z _ rfl rfl
  · exact .restart s z _
  · split
    · exact .refl s
    · exact .restart s z _

/-- The beacon unit acts on a beacon whose holder set alone was written. -/
theorem SameSettings.act_put (s : State) (z : Nat) (x : Beacon) (hi : x.idle = (s.beacon z).idle)
    (hh : x.hold = (s.beacon z).hold) : SameSettings s ((s.putBeacon z x).actBeacon z) :=
  (SameSettings.of_put s z x hi hh).trans (.act _ z)

theorem SameSettings.leave (s : State) (n : Nat) (o : Option Nat) : SameSettings s (s.leaveBeacon n o) := by
  cases o with
  | none => exact .refl s
  | some z => exact .act_put s z _ rfl rfl

theorem SameSettings.join (s : State) (n : Nat) (o : Option Nat) : SameSettings s (s.joinBeacon n o) := by
  cases o with
  | none => exact .refl s
  | some z => exact .act_put s z _ rfl rfl

/-- Writing a call record back changes no beacon's idle level and no manual hold. -/
theorem SameSettings.putCall (s : State) (a b : Call) : SameSettings s (s.putCall a b) := by
  unfold State.putCall State.moveHolder
  split
  · exact .refl s
  · have h := SameSettings.leave (s.setBook { s.book with calls := replaceCall b s.book.calls }) b.number
      a.heldBeacon
    exact SameSettings.trans h (.join _ _ _)

/-- The book after a record was written back. -/
theorem State.putCall_book (s : State) (a b : Call) :
    (s.putCall a b).book = { s.book with calls := replaceCall b s.book.calls } := by
  rw [State.putCall_rest]; rfl

/-! ### Posting -/

@[simp] theorem State.post_pending (s : State) (k : NoticeKey) : (s.post k).pending = s.pending := by
  unfold State.post; split <;> rfl
@[simp] theorem State.post_clock (s : State) (k : NoticeKey) : (s.post k).clock = s.clock := by
  unfold State.post; split <;> rfl
@[simp] theorem State.post_book (s : State) (k : NoticeKey) : (s.post k).book = s.book := by
  unfold State.post; split <;> rfl
@[simp] theorem State.post_registry (s : State) (k : NoticeKey) : (s.post k).registry = s.registry := by
  unfold State.post; split <;> rfl
@[simp] theorem State.post_ladders (s : State) (k : NoticeKey) : (s.post k).ladders = s.ladders := by
  unfold State.post; split <;> rfl
@[simp] theorem State.post_acks (s : State) (k : NoticeKey) : (s.post k).acks = s.acks := by
  unfold State.post; split <;> rfl
@[simp] theorem State.post_sched (s : State) (k : NoticeKey) : (s.post k).sched = s.sched := by
  unfold State.post; split <;> rfl
@[simp] theorem State.post_line (s : State) (k : NoticeKey) : (s.post k).line = s.line := by
  unfold State.post; split <;> rfl
@[simp] theorem State.post_beacons (s : State) (k : NoticeKey) : (s.post k).beacons = s.beacons := by
  unfold State.post; split <;> rfl
@[simp] theorem State.post_store (s : State) (k : NoticeKey) : (s.post k).store = s.store := by
  unfold State.post; split <;> rfl
@[simp] theorem State.post_crew (s : State) (k : NoticeKey) (n : Nat) : (s.post k).crew n = s.crew n := by
  unfold State.post; split <;> rfl
@[simp] theorem State.post_pool (s : State) (k : NoticeKey) (n : Nat) : (s.post k).pool n = s.pool n := by
  unfold State.post; split <;> rfl
@[simp] theorem State.post_ladder (s : State) (k : NoticeKey) (n : Nat) : (s.post k).ladder n = s.ladder n := by
  unfold State.post; split <;> rfl
@[simp] theorem State.post_station (s : State) (k : NoticeKey) (n : Nat) : (s.post k).station n = s.station n := by
  unfold State.post; split <;> rfl
@[simp] theorem State.post_queue (s : State) (k : NoticeKey) (n : Nat) : (s.post k).queue n = s.queue n := by
  unfold State.post; split <;> rfl
@[simp] theorem State.post_group (s : State) (k : NoticeKey) (n : Nat) : (s.post k).group n = s.group n := by
  unfold State.post; split <;> rfl
@[simp] theorem State.post_pagerEntry (s : State) (k : NoticeKey) (n : Nat) : (s.post k).pagerEntry? n = s.pagerEntry? n := by
  unfold State.post; split <;> rfl
@[simp] theorem State.post_findCall (s : State) (k : NoticeKey) (n : Nat) : (s.post k).findCall n = s.findCall n := by
  unfold State.post; split <;> rfl
@[simp] theorem State.post_beacon (s : State) (k : NoticeKey) (n : Nat) : (s.post k).beacon n = s.beacon n := by
  unfold State.post; split <;> rfl

/-- Posting appends the record unless it stands on the list already (R170). -/
theorem State.post_link (s : State) (k : NoticeKey) :
    (s.post k).link = { s.link with
      notices := if k ∈ s.link.notices then s.link.notices else s.link.notices ++ [k] } := by
  unfold State.post
  by_cases h : k ∈ s.link.notices <;> simp [h]

theorem State.post_notices_nodup (s : State) (k : NoticeKey) (h : s.link.notices.Nodup) :
    (s.post k).link.notices.Nodup := by
  rw [State.post_link]
  dsimp only
  split
  · exact h
  · next hk => exact List.nodup_append.mpr ⟨h, by simp, by simpa using fun a ha (e : a = k) => hk (e ▸ ha)⟩

/-- A posted record stands on the list. -/
theorem State.mem_post (s : State) (k : NoticeKey) : k ∈ (s.post k).link.notices := by
  rw [State.post_link]
  dsimp only
  split <;> simp_all

/-! ### Finding and replacing a record -/

/-- The record found carries the number asked for. -/
theorem State.findCall_number {s : State} {n : Nat} {c : Call} (h : s.findCall n = some c) :
    c.number = n := by
  have := List.find?_some h
  simpa using this

/-- The record found is in the book. -/
theorem State.findCall_mem {s : State} {n : Nat} {c : Call} (h : s.findCall n = some c) :
    c ∈ s.book.calls := List.mem_of_find?_eq_some h

/-- Replacing a record keeps the numbers in the book. -/
theorem replaceCall_numbers (c : Call) (cs : List Call) :
    (replaceCall c cs).map Call.number = cs.map Call.number := by
  unfold replaceCall
  rw [List.map_map]
  apply List.map_congr_left
  intro x _
  by_cases h : x.number = c.number <;> simp [h]

/-- What a number names in a list of records after one was replaced. -/
theorem find_replaceCall (c : Call) (cs : List Call) (n : Nat) :
    (replaceCall c cs).find? (fun x => decide (x.number = n)) =
      (cs.find? (fun x => decide (x.number = n))).map (fun x => if n = c.number then c else x) := by
  induction cs with
  | nil => rfl
  | cons x xs ih =>
    unfold replaceCall at ih ⊢
    simp only [List.map_cons, List.find?_cons]
    by_cases hx : x.number = c.number
    · by_cases hn : c.number = n
      · simp [hx, hn]
      · simp [hx, hn, ih]
    · by_cases hn : x.number = n
      · have : n ≠ c.number := fun e => hx (hn.trans e)
        simp [hn, this]
      · simp [hx, hn, ih]

/-- What a number names after a record was written back. -/
theorem State.putCall_findCall (s : State) (a b : Call) (n : Nat) :
    (s.putCall a b).findCall n = (s.findCall n).map (fun x => if n = b.number then b else x) := by
  unfold State.findCall
  rw [State.putCall_book]
  exact find_replaceCall b s.book.calls n

@[simp] theorem State.putCall_crew (s : State) (a b : Call) (n : Nat) : (s.putCall a b).crew n = s.crew n := by
  rw [State.putCall_rest]; rfl
@[simp] theorem State.putCall_pool (s : State) (a b : Call) (n : Nat) : (s.putCall a b).pool n = s.pool n := by
  rw [State.putCall_rest]; rfl
@[simp] theorem State.putCall_ladder (s : State) (a b : Call) (n : Nat) : (s.putCall a b).ladder n = s.ladder n := by
  rw [State.putCall_rest]; rfl
@[simp] theorem State.putCall_station (s : State) (a b : Call) (n : Nat) : (s.putCall a b).station n = s.station n := by
  rw [State.putCall_rest]; rfl
@[simp] theorem State.putCall_queue (s : State) (a b : Call) (n : Nat) : (s.putCall a b).queue n = s.queue n := by
  rw [State.putCall_rest]; rfl
@[simp] theorem State.putCall_group (s : State) (a b : Call) (n : Nat) : (s.putCall a b).group n = s.group n := by
  rw [State.putCall_rest]; rfl
@[simp] theorem State.putCall_pagerEntry (s : State) (a b : Call) (n : Nat) : (s.putCall a b).pagerEntry? n = s.pagerEntry? n := by
  rw [State.putCall_rest]; rfl

/-! ### Changing a call -/

@[simp] theorem State.changeCall_pending (s : State) (n : Nat) (f : Call → Call) : (s.changeCall n f).pending = s.pending := by
  unfold State.changeCall; split <;> simp
@[simp] theorem State.changeCall_clock (s : State) (n : Nat) (f : Call → Call) : (s.changeCall n f).clock = s.clock := by
  unfold State.changeCall; split <;> simp
@[simp] theorem State.changeCall_registry (s : State) (n : Nat) (f : Call → Call) : (s.changeCall n f).registry = s.registry := by
  unfold State.changeCall; split <;> simp
@[simp] theorem State.changeCall_ladders (s : State) (n : Nat) (f : Call → Call) : (s.changeCall n f).ladders = s.ladders := by
  unfold State.changeCall; split <;> simp
@[simp] theorem State.changeCall_acks (s : State) (n : Nat) (f : Call → Call) : (s.changeCall n f).acks = s.acks := by
  unfold State.changeCall; split <;> simp
@[simp] theorem State.changeCall_sched (s : State) (n : Nat) (f : Call → Call) : (s.changeCall n f).sched = s.sched := by
  unfold State.changeCall; split <;> simp
@[simp] theorem State.changeCall_line (s : State) (n : Nat) (f : Call → Call) : (s.changeCall n f).line = s.line := by
  unfold State.changeCall; split <;> simp
@[simp] theorem State.changeCall_store (s : State) (n : Nat) (f : Call → Call) : (s.changeCall n f).store = s.store := by
  unfold State.changeCall; split <;> simp
@[simp] theorem State.changeCall_crew (s : State) (n m : Nat) (f : Call → Call) : (s.changeCall n f).crew m = s.crew m := by
  unfold State.changeCall; split <;> simp
@[simp] theorem State.changeCall_pool (s : State) (n m : Nat) (f : Call → Call) : (s.changeCall n f).pool m = s.pool m := by
  unfold State.changeCall; split <;> simp
@[simp] theorem State.changeCall_ladder (s : State) (n m : Nat) (f : Call → Call) : (s.changeCall n f).ladder m = s.ladder m := by
  unfold State.changeCall; split <;> simp
@[simp] theorem State.changeCall_station (s : State) (n m : Nat) (f : Call → Call) : (s.changeCall n f).station m = s.station m := by
  unfold State.changeCall; split <;> simp
@[simp] theorem State.changeCall_queue (s : State) (n m : Nat) (f : Call → Call) : (s.changeCall n f).queue m = s.queue m := by
  unfold State.changeCall; split <;> simp
@[simp] theorem State.changeCall_group (s : State) (n m : Nat) (f : Call → Call) : (s.changeCall n f).group m = s.group m := by
  unfold State.changeCall; split <;> simp
@[simp] theorem State.changeCall_pagerEntry (s : State) (n m : Nat) (f : Call → Call) : (s.changeCall n f).pagerEntry? m = s.pagerEntry? m := by
  unfold State.changeCall; split <;> simp

/-- What the call's own number names after a change that keeps the number. -/
theorem State.changeCall_findCall (s : State) (n m : Nat) (f : Call → Call)
    (hf : ∀ c, (f c).number = c.number) :
    (s.changeCall n f).findCall m = (s.findCall m).map (fun x => if m = n then f x else x) := by
  unfold State.changeCall
  cases h : s.findCall n with
  | none =>
    cases hm : s.findCall m with
    | none => rfl
    | some x =>
      have : m ≠ n := by rintro rfl; simp [h] at hm
      simp [this]
  | some c =>
    have hc := State.findCall_number h
    have hfc : (f c).number = n := (hf c).trans hc
    simp only [State.post_findCall, State.putCall_findCall, hfc]
    by_cases hmn : m = n
    · subst hmn; simp [h]
    · cases s.findCall m <;> simp [hmn]

/-- A change of a call that the book holds posts it (R3). -/
theorem State.changeCall_posts (s : State) (n : Nat) (f : Call → Call) {c : Call}
    (h : s.findCall n = some c) : .call n ∈ (s.changeCall n f).link.notices := by
  unfold State.changeCall
  rw [h]
  exact State.mem_post _ _

end Sys2Proof.Machine
end

