-- ==== Sys2Proof/Laws/Queues.lean ====
section
/-!
SUPPORT. The laws of page queues (R108 to R119): every operation on a queue keeps it sound.
-/

namespace Sys2Proof.Machine

/-- The key of an item (R108). -/
def Item.key (i : Item) : Nat × Nat × ItemKind := (i.pager, i.call, i.kind)

theorem Item.same_iff (a b : Item) : a.same b = true ↔ a.key = b.key := by
  simp [Item.same, Item.key]

theorem Item.same_false_iff (a b : Item) : a.same b = false ↔ a.key ≠ b.key := by
  rw [Ne, ← Item.same_iff, Bool.not_eq_true]

/-- No two items are equal exactly when their keys are distinct. -/
theorem pairwise_same_iff (xs : List Item) :
    xs.Pairwise (fun a b => a.same b = false) ↔ (xs.map Item.key).Nodup := by
  rw [List.Nodup, List.pairwise_map]
  simp only [Item.same_false_iff]

/-- Items in descending class (R109). -/
abbrev byClass (xs : List Item) : Prop := xs.Pairwise (fun a b => b.cls.rank ≤ a.cls.rank)

theorem StationQueue.sound_iff (q : StationQueue) :
    q.Sound ↔ q.count ≤ Config.queueCap ∧ (q.waiting.map Item.key).Nodup ∧
      (q.flying.map Item.key).Nodup ∧ byClass q.ordered := by
  constructor
  · intro h
    exact ⟨h.count, (pairwise_same_iff _).mp h.waiting, (pairwise_same_iff _).mp h.flying, h.ordered⟩
  · intro h
    exact ⟨h.1, (pairwise_same_iff _).mpr h.2.1, (pairwise_same_iff _).mpr h.2.2.1, h.2.2.2⟩

theorem StationQueue.empty_sound : StationQueue.empty.Sound := by
  rw [StationQueue.sound_iff]
  exact ⟨by decide, List.nodup_nil, List.nodup_nil, List.Pairwise.nil⟩

/-- The grant phase and the wait-for-idle mark take no part in soundness. -/
theorem StationQueue.Sound.of_items {q r : StationQueue} (h : q.Sound) (hr : r.returned = q.returned)
    (ho : r.ordered = q.ordered) (hf : r.flight = q.flight) : r.Sound := by
  have hw : r.waiting = q.waiting := by simp [StationQueue.waiting, hr, ho]
  have hg : r.flying = q.flying := by simp [StationQueue.flying, hf]
  exact ⟨by simpa [StationQueue.count, hw, hg] using h.count, hw ▸ h.waiting, hg ▸ h.flying, ho ▸ h.ordered⟩

/-! ### Placing (R110, R111) -/

theorem mergeInto_keys (copy : Item) (xs : List Item) :
    (mergeInto copy xs).map Item.key = xs.map Item.key := by
  unfold mergeInto
  rw [List.map_map]
  apply List.map_congr_left
  intro x _
  by_cases h : x.same copy = true <;> simp [h, Item.key]

theorem insertByClass_perm (copy : Item) (xs : List Item) :
    (insertByClass copy xs).Perm (copy :: xs) := by
  induction xs with
  | nil => exact .refl _
  | cons x xs ih =>
    unfold insertByClass
    split
    · exact .refl _
    · exact (ih.cons x).trans (.swap _ _ _)

theorem insertByClass_length (copy : Item) (xs : List Item) :
    (insertByClass copy xs).length = xs.length + 1 := by
  rw [(insertByClass_perm copy xs).length_eq]; rfl

/-- A copy takes its place by class (R110). -/
theorem insertByClass_byClass (copy : Item) {xs : List Item} (h : byClass xs) :
    byClass (insertByClass copy xs) := by
  induction xs with
  | nil => exact List.pairwise_singleton _ _
  | cons x xs ih =>
    obtain ⟨hx, hxs⟩ := List.pairwise_cons.mp h
    unfold insertByClass
    split
    · next hlt =>
      refine List.pairwise_cons.mpr ⟨fun y hy => ?_, h⟩
      rcases List.mem_cons.mp hy with rfl | hy
      · exact hlt.le
      · exact (hx y hy).trans hlt.le
    · next hge =>
      refine List.pairwise_cons.mpr ⟨fun y hy => ?_, ih hxs⟩
      rcases List.mem_cons.mp ((insertByClass_perm copy xs).mem_iff.mp hy) with rfl | hy
      · exact Nat.le_of_not_lt hge
      · exact hx y hy

theorem mergeInto_byClass (copy : Item) {xs : List Item} (h : byClass xs) : byClass (mergeInto copy xs) := by
  unfold mergeInto
  refine List.pairwise_map.mpr (h.imp fun {a b} hab => ?_)
  by_cases ha : a.same copy = true <;> by_cases hb : b.same copy = true <;> simpa [ha, hb] using hab

theorem StationQueue.waiting_insert_perm (q : StationQueue) (copy : Item) (r : StationQueue)
    (hr : r.returned = q.returned) (ho : r.ordered = insertByClass copy q.ordered) :
    r.waiting.Perm (copy :: q.waiting) := by
  unfold StationQueue.waiting
  rw [hr, ho]
  exact ((insertByClass_perm copy q.ordered).append_left _).trans List.perm_middle

/-- Inserting a copy that equals no waiting item keeps a queue with room sound. -/
theorem StationQueue.insert_sound {q r : StationQueue} {copy : Item} (h : q.Sound)
    (hroom : q.count < Config.queueCap) (hnew : q.waiting.any (fun x => x.same copy) = false)
    (hr : r.returned = q.returned) (ho : r.ordered = insertByClass copy q.ordered)
    (hf : r.flight = q.flight) : r.Sound := by
  rw [StationQueue.sound_iff] at h ⊢
  have hp := StationQueue.waiting_insert_perm q copy r hr ho
  have hg : r.flying = q.flying := by simp [StationQueue.flying, hf]
  have hl : r.waiting.length = q.waiting.length + 1 := by rw [hp.length_eq]; rfl
  refine ⟨?_, ?_, hg ▸ h.2.2.1, ho ▸ insertByClass_byClass copy h.2.2.2⟩
  · have := hroom
    simp only [StationQueue.count, hl, hg] at this ⊢
    omega
  · rw [(hp.map Item.key).nodup_iff, List.map_cons, List.nodup_cons]
    refine ⟨?_, h.2.1⟩
    intro hm
    obtain ⟨x, hx, hk⟩ := List.mem_map.mp hm
    have hs : x.same copy = true := (Item.same_iff x copy).mpr hk
    rw [List.any_eq_false] at hnew
    exact hnew x hx hs

theorem StationQueue.dropTail_waiting (q : StationQueue) :
    q.dropTail.waiting = q.waiting.dropLast := by
  unfold StationQueue.dropTail StationQueue.waiting
  by_cases h : q.ordered = []
  · simp [h]
  · simp [h, List.dropLast_append_of_ne_nil h]

theorem StationQueue.dropTail_flight (q : StationQueue) : q.dropTail.flight = q.flight := by
  unfold StationQueue.dropTail
  split <;> rfl

/-- Dropping the tail keeps a queue sound. -/
theorem StationQueue.Sound.dropTail {q : StationQueue} (h : q.Sound) : q.dropTail.Sound := by
  rw [StationQueue.sound_iff] at h ⊢
  have hg : q.dropTail.flying = q.flying := by
    simp [StationQueue.flying, StationQueue.dropTail_flight]
  refine ⟨?_, ?_, hg ▸ h.2.2.1, ?_⟩
  · have := h.1
    simp only [StationQueue.count, StationQueue.dropTail_waiting, hg, List.length_dropLast] at this ⊢
    omega
  · rw [StationQueue.dropTail_waiting]
    exact h.2.1.sublist ((List.dropLast_sublist _).map _)
  · unfold StationQueue.dropTail
    split
    · exact h.2.2.2
    · exact h.2.2.2.sublist (List.dropLast_sublist _)

theorem StationQueue.tail?_some {q : StationQueue} {t : Item} (h : q.tail? = some t) :
    q.waiting ≠ [] := by
  unfold StationQueue.tail? at h
  intro hw
  obtain ⟨hr, ho⟩ := List.append_eq_nil_iff.mp hw
  simp [hr, ho] at h

/-- What placing a copy does keeps a queue sound (R110, R111). -/
theorem StationQueue.Sound.accept {q : StationQueue} (h : q.Sound) (copy : Item) :
    (q.accept copy).1.Sound := by
  unfold StationQueue.accept
  cases hany : q.waiting.any (fun x => x.same copy) with
  | true =>
    simp only [if_true]
    rw [StationQueue.sound_iff] at h ⊢
    have hk : (mergeInto copy q.returned ++ mergeInto copy q.ordered).map Item.key =
        q.waiting.map Item.key := by
      simp [StationQueue.waiting, mergeInto_keys]
    refine ⟨?_, (congrArg List.Nodup hk).mpr h.2.1, h.2.2.1, mergeInto_byClass copy h.2.2.2⟩
    have hl := congrArg List.length hk
    simp only [List.length_map] at hl
    have := h.1
    simp only [StationQueue.count, StationQueue.waiting, StationQueue.flying] at this hl ⊢
    omega
  | false =>
    simp only [Bool.false_eq_true, if_false]
    split
    · next hroom => exact StationQueue.insert_sound h hroom hany rfl rfl rfl
    · next hroom =>
      split
      · exact h
      · next t ht =>
        split
        · have hd := h.dropTail
          refine StationQueue.insert_sound (q := q.dropTail) (copy := copy) hd ?_ ?_ rfl rfl rfl
          · have hne := StationQueue.tail?_some ht
            have hpos : 0 < q.waiting.length := List.length_pos_of_ne_nil hne
            have hc := h.count
            have hg : q.dropTail.flying = q.flying := by
              simp [StationQueue.flying, StationQueue.dropTail_flight]
            simp only [StationQueue.count, StationQueue.dropTail_waiting, hg,
              List.length_dropLast] at hc ⊢
            omega
          · rw [List.any_eq_false] at hany ⊢
            intro x hx
            rw [StationQueue.dropTail_waiting] at hx
            exact hany x (List.mem_of_mem_dropLast hx)
        · exact h

/-! ### Withdrawing (R112) -/

theorem StationQueue.withdraw_waiting (n : Nat) (q : StationQueue) :
    (q.withdraw n).waiting = q.waiting.filter (fun i => !(i.asks && decide (i.call = n))) := by
  simp [StationQueue.withdraw, StationQueue.waiting]

theorem StationQueue.Sound.withdraw {q : StationQueue} (h : q.Sound) (n : Nat) :
    (q.withdraw n).Sound := by
  rw [StationQueue.sound_iff] at h ⊢
  have hg : (q.withdraw n).flying = q.flying := rfl
  refine ⟨?_, ?_, hg ▸ h.2.2.1, h.2.2.2.sublist List.filter_sublist⟩
  · have := h.1
    have hl := List.length_filter_le (fun i : Item => !(i.asks && decide (i.call = n))) q.waiting
    simp only [StationQueue.count, StationQueue.withdraw_waiting, hg] at this ⊢
    omega
  · rw [StationQueue.withdraw_waiting]
    exact h.2.1.sublist (List.filter_sublist.map _)

/-! ### Bursts (R117 to R119) -/

/-- Sending the items in flight keeps a queue sound. -/
theorem StationQueue.Sound.sent {q r : StationQueue} (h : q.Sound) (hr : r.returned = q.returned)
    (ho : r.ordered = q.ordered) (hf : r.flight = none) : r.Sound := by
  rw [StationQueue.sound_iff] at h ⊢
  have hw : r.waiting = q.waiting := by simp [StationQueue.waiting, hr, ho]
  refine ⟨?_, hw ▸ h.2.1, by simp [StationQueue.flying, hf], ho ▸ h.2.2.2⟩
  have := h.1
  simp only [StationQueue.count, hw, StationQueue.flying, hf, List.length_nil] at this ⊢
  omega

theorem takeNewer_key (w : List Item) (i : Item) : (takeNewer w i).key = i.key := by
  unfold takeNewer
  split <;> rfl

/-- The items that come back and the items that wait on, after a return. -/
theorem StationQueue.giveBack_waiting (q : StationQueue) (items : List Item) :
    (q.giveBack items).waiting = items.map (takeNewer q.waiting) ++
      q.waiting.filter (fun w => !items.any (fun i => i.same w)) := by
  simp [StationQueue.giveBack, StationQueue.waiting]

/-- Returning items that were in flight keeps a queue sound (R119). -/
theorem StationQueue.Sound.giveBack {q : StationQueue} (h : q.Sound) (items : List Item)
    (hs : items.Sublist q.flying) : (q.giveBack items).Sound := by
  rw [StationQueue.sound_iff] at h ⊢
  have hf : (q.giveBack items).flying = [] := rfl
  have hkeys : (items.map (takeNewer q.waiting)).map Item.key = items.map Item.key := by
    rw [List.map_map]
    exact List.map_congr_left fun i _ => takeNewer_key _ i
  refine ⟨?_, ?_, by simp [hf], h.2.2.2.sublist List.filter_sublist⟩
  · have := h.1
    have hl := List.length_filter_le (fun w : Item => !items.any (fun i => i.same w)) q.waiting
    have hi := hs.length_le
    simp only [StationQueue.count, StationQueue.giveBack_waiting, hf, List.length_append,
      List.length_map, List.length_nil] at this ⊢
    omega
  · rw [StationQueue.giveBack_waiting, List.map_append, List.nodup_append, hkeys]
    refine ⟨h.2.2.1.sublist (hs.map _), h.2.1.sublist (List.filter_sublist.map _), ?_⟩
    rintro a ha b hb rfl
    obtain ⟨i, hi, rfl⟩ := List.mem_map.mp ha
    obtain ⟨w, hw, hk⟩ := List.mem_map.mp hb
    have hw2 := (List.mem_filter.mp hw).2
    have : items.any (fun i => i.same w) = true :=
      List.any_eq_true.mpr ⟨i, hi, (Item.same_iff i w).mpr hk.symm⟩
    simp [this] at hw2

/-- Forming a burst keeps a queue sound (R117). -/
theorem StationQueue.Sound.form {q r : StationQueue} (h : q.Sound) (b : Burst)
    (hb : b.items = q.waiting.take Config.burstCap)
    (hr : r.returned = q.returned.drop Config.burstCap)
    (ho : r.ordered = q.ordered.drop (Config.burstCap - q.returned.length))
    (hf : r.flight = some b) : r.Sound := by
  rw [StationQueue.sound_iff] at h ⊢
  have hw : r.waiting = q.waiting.drop Config.burstCap := by
    simp [StationQueue.waiting, hr, ho, List.drop_append]
  have hg : r.flying = q.waiting.take Config.burstCap := by simp [StationQueue.flying, hf, hb]
  refine ⟨?_, ?_, ?_, ho ▸ h.2.2.2.sublist (List.drop_sublist _ _)⟩
  · have := h.1
    simp only [StationQueue.count, hw, hg, List.length_drop, List.length_take] at this ⊢
    omega
  · rw [hw]; exact h.2.1.sublist ((List.drop_sublist _ _).map _)
  · rw [hg]; exact h.2.1.sublist ((List.take_sublist _ _).map _)

end Sys2Proof.Machine
end

