-- ==== Sys2Proof/Laws/Engine.lean ====
section
/-!
SUPPORT. What the escalation engine, the locator and the airtime scheduler can do to the state, said once:
every operation of theirs is a chain of small steps, and each step's effect is known. `own` says which calls
may change in more than their force-wide flag.
-/

namespace Sys2Proof.Machine

/-- Every pool lists at most 8 distinct crews (R35), all that the soundness of a call record rests on. -/
def State.PoolsSound (s : State) : Prop :=
  ∀ k, (s.pool k).crews.length ≤ 8 ∧ (s.pool k).crews.Nodup

/-- A change of a call record the engine may make. -/
structure CallStep (own : Nat → Prop) (s : State) (c c' : Call) : Prop where
  same : c'.SameIdentity c
  mine : own c.number ∨ c' = { c with forceWide := c'.forceWide }
  opened : c.state ≠ .closed → c'.state ≠ .closed
  shut : c.state = .closed → c' = { c with forceWide := c'.forceWide }
  sound : s.PoolsSound → c.Sound → c'.Sound

/-- One small step of the engine, the locator or the scheduler. -/
inductive EngineStep (own : Nat → Prop) : State → State → Prop
  | post (s : State) (k : NoticeKey) : EngineStep own s (s.post k)
  | call (s : State) (c c' : Call) (found : s.findCall c.number = some c)
      (step : CallStep own s c c') : EngineStep own s (s.putCall c c')
  | pointer (s : State) (p k : Nat) (place : 1 ≤ k ∧ k ≤ (s.pool p).crews.length) :
      EngineStep own s (s.putPool p { s.pool p with pointer := k })
  | queue (s : State) (st : Nat) (q : StationQueue) (sound : (s.queue st).Sound → q.Sound) :
      EngineStep own s (s.putQueue st q)
  | withdraw (s : State) (n : Nat) : EngineStep own s (s.withdrawPages n)
  | grants (s : State) (g : Vector Group 4) (b : Byte) :
      EngineStep own s (s.setSched { s.sched with groups := g, burstId := b })
  | bursts (s : State) (l : List Nat) : EngineStep own s (s.setLine { s.line with burstWaits := l })

/-- A chain of such steps. -/
abbrev Engine (own : Nat → Prop) : State → State → Prop := Relation.ReflTransGen (EngineStep own)

/-- No call changes in more than its force-wide flag. -/
def noCall : Nat → Prop := fun _ => False

/-- Only call `n` does. -/
def onlyCall (n : Nat) : Nat → Prop := fun m => m = n

variable {own : Nat → Prop}

theorem EngineStep.mono {own' : Nat → Prop} (h : ∀ n, own n → own' n) {s t : State}
    (e : EngineStep own s t) : EngineStep own' s t := by
  cases e with
  | post k => exact .post _ k
  | call c c' f st => exact .call _ c c' f ⟨st.same, st.mine.imp_left (h _), st.opened, st.shut, st.sound⟩
  | pointer p k h => exact .pointer _ p k h
  | queue st q hq => exact .queue _ st q hq
  | withdraw n => exact .withdraw _ n
  | grants g b => exact .grants _ g b
  | bursts l => exact .bursts _ l

theorem Engine.mono {own' : Nat → Prop} (h : ∀ n, own n → own' n) {s t : State} (e : Engine own s t) :
    Engine own' s t := by
  induction e with
  | refl => exact .refl
  | tail _ k ih => exact ih.tail (k.mono h)

theorem Engine.of_noCall {s t : State} (e : Engine noCall s t) : Engine own s t :=
  Engine.mono (fun _ h => h.elim) e

theorem EngineStep.one {s t : State} (e : EngineStep own s t) : Engine own s t :=
  Relation.ReflTransGen.single e

theorem Engine.forEach {α : Type} (xs : List α) (f : α → State → State)
    (h : ∀ x ∈ xs, ∀ s, Engine own s (f x s)) (s : State) : Engine own s (forEach xs f s) := by
  induction xs generalizing s with
  | nil => exact .refl
  | cons x xs ih =>
    exact (h x List.mem_cons_self s).trans (ih (fun y hy => h y (List.mem_cons_of_mem _ hy)) (f x s))

/-! ### The steps of each operation -/

theorem engine_post (s : State) (k : NoticeKey) : Engine own s (s.post k) := (EngineStep.post s k).one

/-- A change of a call is such a chain when the change is one the engine may make. -/
theorem engine_changeCall (s : State) (n : Nat) (f : Call → Call)
    (h : ∀ c, s.findCall n = some c → CallStep own s c (f c)) : Engine own s (s.changeCall n f) := by
  unfold State.changeCall
  cases hc : s.findCall n with
  | none => exact .refl
  | some c =>
    have hn := State.findCall_number hc
    exact (EngineStep.call s c (f c) (hn ▸ hc) (h c hc)).one.trans (engine_post _ _)

/-- Widening a call changes nothing else of it. -/
theorem CallStep.widen (s : State) (c : Call) :
    CallStep own s c { c with forceWide := true } where
  same := ⟨rfl, rfl, rfl, rfl, rfl, rfl, rfl, rfl⟩
  mine := .inr rfl
  opened := id
  shut := fun _ => rfl
  sound := fun _ h => ⟨h.accepting, h.reason, h.arrival, h.deadline, h.nextRepeat, h.beacon, h.targetCount,
    h.targetsDistinct, h.declined⟩

theorem engine_setForceWide (s : State) (n : Nat) : Engine own s (s.setForceWide n) := by
  unfold State.setForceWide
  cases hc : s.findCall n with
  | none => exact .refl
  | some c =>
    dsimp only
    split
    · exact .refl
    · exact engine_changeCall s n _ fun c _ => CallStep.widen s c

theorem engine_putGroup (s : State) (g : Nat) (x : Group) : Engine own s (s.putGroup g x) :=
  (EngineStep.grants s (setRow s.sched.groups g x) s.sched.burstId).one

/-- The grant phase of a station takes no part in the soundness of its queue. -/
theorem engine_phase (s : State) (st : Nat) (p : Phase) :
    Engine own s (s.putQueue st { s.queue st with phase := p }) :=
  (EngineStep.queue s st { s.queue st with phase := p } fun h => h.of_items rfl rfl rfl).one

theorem engine_setWaitIdle (s : State) (st : Nat) (b : Bool) : Engine own s (s.setWaitIdle st b) :=
  (EngineStep.queue s st { s.queue st with waitIdle := b } fun h => h.of_items rfl rfl rfl).one

theorem engine_giveGrant (s : State) (g st n : Nat) : Engine own s (s.giveGrant g st n) :=
  (engine_putGroup s g _).trans ((engine_phase _ st .granted).trans (EngineStep.bursts _ _).one)

theorem engine_arbitrate (s : State) (g : Nat) : Engine own s (s.arbitrate g) := by
  unfold State.arbitrate
  dsimp only
  split
  · exact .refl
  · split
    · exact engine_giveGrant _ _ _ _
    · split
      · exact engine_giveGrant _ _ _ _
      · split
        · exact engine_giveGrant _ _ _ _
        · exact .refl

theorem engine_releaseGrant (s : State) (st : Nat) : Engine own s (s.releaseGrant st) := by
  unfold State.releaseGrant
  dsimp only
  split
  · exact (engine_putGroup s _ _).trans ((engine_phase _ st .none).trans (EngineStep.bursts _ _).one)
  · exact .refl

theorem engine_loseItem (s : State) (o : Option Item) : Engine own s (s.loseItem o) := by
  cases o with
  | none => exact .refl
  | some i =>
    dsimp only [State.loseItem]
    split
    · exact engine_setForceWide _ _
    · exact .refl

theorem engine_place (copy : Item) (st : Nat) (s : State) : Engine own s (State.place copy st s) :=
  ((EngineStep.queue s st _ fun h => h.accept copy).one.trans (engine_loseItem _ _)).trans
    (engine_arbitrate _ _)

theorem engine_widenIfOpen (i : Item) (s : State) : Engine own s (State.widenIfOpen i s) := by
  unfold State.widenIfOpen
  split
  · split
    · exact .refl
    · split
      · exact .refl
      · exact engine_setForceWide _ _
  · exact .refl

theorem engine_flush (s : State) (st : Nat) : Engine own s (s.flush st) :=
  (((engine_releaseGrant s st).trans
    (EngineStep.queue _ st .empty fun _ => StationQueue.empty_sound).one).trans
    (Engine.forEach _ _ (fun i _ s => engine_widenIfOpen i s) _)).trans (engine_arbitrate _ _)

theorem engine_returnItems (s : State) (st : Nat) : Engine own s (s.returnItems st) :=
  (EngineStep.queue s st _ fun h => h.giveBack _ List.filter_sublist).one

theorem engine_burstFailed (s : State) (st : Nat) : Engine own s (s.burstFailed st) :=
  (((engine_releaseGrant s st).trans (engine_returnItems _ st)).trans
    (engine_setWaitIdle _ st true)).trans (engine_arbitrate _ _)

theorem engine_burstTaken (s : State) (st : Nat) : Engine own s (s.burstTaken st) :=
  (EngineStep.queue s st { s.queue st with flight := none, phase := .onAir }
    fun h => h.sent rfl rfl rfl).one.trans (engine_putGroup _ _ _)

theorem engine_transmitterSeen (s : State) (st : Nat) (busy : Bool) :
    Engine own s (s.transmitterSeen st busy) := by
  unfold State.transmitterSeen
  cases busy with
  | true => exact .refl
  | false =>
    simp only [Bool.false_eq_true, if_false]
    split
    · exact ((engine_releaseGrant s st).trans (engine_setWaitIdle _ st false)).trans
        (engine_arbitrate _ _)
    · exact (engine_setWaitIdle s st false).trans (engine_arbitrate _ _)

theorem engine_formBurst (s : State) (st : Nat) : Engine own s (s.formBurst st).1 :=
  (EngineStep.queue s st _ fun h => h.form
    ⟨s.sched.burstId, (s.queue st).waiting.take Config.burstCap⟩ rfl rfl rfl rfl).one.trans
    (EngineStep.grants _ _ _).one

/-! ### The locator -/

theorem engine_produce (i : Item) (s : State) : Engine own s (State.produce i s) := by
  unfold State.produce
  split
  · split
    · exact engine_setForceWide _ _
    · exact .refl
  · exact Engine.forEach _ _ (fun st _ s => engine_place i st s) _

/-- Sending items to crews changes no call in more than its force-wide flag. -/
theorem engine_sendToCrews (s : State) (mk : Nat → Item) (crews : List Nat) :
    Engine own s (s.sendToCrews mk crews) :=
  Engine.forEach _ _ (fun p _ s => engine_produce (mk p) s) _

/-! ### What a chain leaves alone -/

theorem Call.core_eq_of_widened {c c' : Call} (h : c' = { c with forceWide := c'.forceWide }) :
    c'.core = c.core := by rw [h]; rfl

theorem Call.SameIdentity.rfl' (c : Call) : c.SameIdentity c :=
  ⟨rfl, rfl, rfl, rfl, rfl, rfl, rfl, rfl⟩

theorem Call.SameIdentity.trans {a b c : Call} (h : a.SameIdentity b) (k : b.SameIdentity c) :
    a.SameIdentity c :=
  ⟨h.number.trans k.number, h.source.trans k.source, h.origin.trans k.origin, h.cls.trans k.cls,
    h.ladder.trans k.ladder, h.text.trans k.text, h.preferred.trans k.preferred,
    h.raiseTick.trans k.raiseTick⟩

theorem EngineFrame.refl (s : State) : EngineFrame own s s where
  pending := rfl
  clock := rfl
  ladders := rfl
  acks := rfl
  store := rfl
  crews := rfl
  directory := rfl
  poolLists := fun _ => rfl
  beacons := fun _ => ⟨rfl, rfl⟩
  link := rfl
  notices := ⟨[], by simp⟩
  line := rfl
  book := rfl
  numbers := rfl
  others := fun _ _ => rfl
  same := fun _ c h => ⟨c, h, .rfl' c⟩

theorem EngineFrame.trans {s t u : State} (h : EngineFrame own s t) (k : EngineFrame own t u) :
    EngineFrame own s u where
  pending := k.pending.trans h.pending
  clock := k.clock.trans h.clock
  ladders := k.ladders.trans h.ladders
  acks := k.acks.trans h.acks
  store := k.store.trans h.store
  crews := k.crews.trans h.crews
  directory := k.directory.trans h.directory
  poolLists := fun n => (k.poolLists n).trans (h.poolLists n)
  beacons := fun z => ⟨(k.beacons z).1.trans (h.beacons z).1, (k.beacons z).2.trans (h.beacons z).2⟩
  link := by rw [k.link, h.link]
  notices := by
    obtain ⟨a, ha⟩ := h.notices
    obtain ⟨b, hb⟩ := k.notices
    exact ⟨a ++ b, by rw [hb, ha, List.append_assoc]⟩
  line := by rw [k.line, h.line]
  book := by rw [k.book, h.book]
  numbers := k.numbers.trans h.numbers
  others := fun n hn => (k.others n hn).trans (h.others n hn)
  same := fun n c hc => by
    obtain ⟨d, hd, hdc⟩ := h.same n c hc
    obtain ⟨e, he, hed⟩ := k.same n d hd
    exact ⟨e, he, hed.trans hdc⟩

/-- A step that changes none of the blocks a frame speaks of. -/
theorem EngineFrame.of_blocks {s t : State} (hp : t.pending = s.pending) (hc : t.clock = s.clock)
    (hl : t.ladders = s.ladders) (ha : t.acks = s.acks) (hs : t.store = s.store)
    (hr : t.registry = s.registry) (hb : t.book = s.book) (hz : t.beacons = s.beacons)
    (hk : t.link = { s.link with notices := t.link.notices })
    (hn : ∃ l, t.link.notices = s.link.notices ++ l)
    (hi : t.line = { s.line with burstWaits := t.line.burstWaits }) : EngineFrame own s t where
  pending := hp
  clock := hc
  ladders := hl
  acks := ha
  store := hs
  crews := by rw [hr]
  directory := by rw [hr]
  poolLists := fun k => by unfold State.pool; rw [hr]
  beacons := fun z => by unfold State.beacon; rw [hz]; exact ⟨rfl, rfl⟩
  link := hk
  notices := hn
  line := hi
  book := by rw [hb]
  numbers := by rw [hb]
  others := fun n _ => by unfold State.findCall; rw [hb]
  same := fun n c h => ⟨c, by unfold State.findCall at h ⊢; rw [hb]; exact h, .rfl' c⟩

theorem EngineStep.frame {s t : State} (e : EngineStep own s t) : EngineFrame own s t := by
  cases e with
  | post k =>
    refine .of_blocks (by simp) (by simp) (by simp) (by simp) (by simp) (by simp) (by simp) (by simp)
      (by rw [State.post_link]) ?_ (by simp)
    rw [State.post_link]
    dsimp only
    split
    · exact ⟨[], by simp⟩
    · exact ⟨[k], rfl⟩
  | call c c' found st =>
    have hnum := st.same.number
    refine ⟨by simp, by simp, by simp, by simp, by simp, by simp, by simp, fun k => by simp,
      SameSettings.putCall s c c', by simp, ⟨[], by simp⟩, by simp, ?_, ?_, ?_, ?_⟩
    · rw [State.putCall_book]
    · rw [State.putCall_book]; exact replaceCall_numbers _ _
    · intro n hn
      rw [State.putCall_findCall]
      by_cases h : n = c'.number
      · have hc : s.findCall n = some c := by rw [h, hnum]; exact found
        have : c' = { c with forceWide := c'.forceWide } := by
          rcases st.mine with hm | hm
          · exact absurd (by rw [h, hnum]; exact hm) hn
          · exact hm
        rw [hc, Option.map_some, if_pos h, Option.map_some, Option.map_some,
          Call.core_eq_of_widened this]
      · cases s.findCall n <;> simp [h]
    · intro n x hx
      rw [State.putCall_findCall, hx]
      by_cases h : n = c'.number
      · have hc : s.findCall n = some c := by rw [h, hnum]; exact found
        have : x = c := Option.some.inj (hx.symm.trans hc)
        exact ⟨c', by simp [h], this ▸ st.same⟩
      · exact ⟨x, by simp [h], .rfl' x⟩
  | pointer p k _ =>
    refine ⟨rfl, rfl, rfl, rfl, rfl, rfl, rfl, ?_, fun _ => ⟨rfl, rfl⟩, rfl, ⟨[], by simp⟩, rfl, rfl, rfl, fun _ _ => rfl,
      fun n c h => ⟨c, h, .rfl' c⟩⟩
    intro j
    rw [State.putPool_pool_eq]
    split
    · next h => rw [h.1]
    · rfl
  | queue st q _ => exact .of_blocks rfl rfl rfl rfl rfl rfl rfl rfl rfl ⟨[], by simp⟩ rfl
  | withdraw n => exact .of_blocks rfl rfl rfl rfl rfl rfl rfl rfl rfl ⟨[], by simp [State.withdrawPages]⟩ rfl
  | grants g b => exact .of_blocks rfl rfl rfl rfl rfl rfl rfl rfl rfl ⟨[], by simp⟩ rfl
  | bursts l => exact .of_blocks rfl rfl rfl rfl rfl rfl rfl rfl rfl ⟨[], by simp⟩ rfl

/-- What a chain of engine steps leaves alone. -/
theorem Engine.frame {s t : State} (e : Engine own s t) : EngineFrame own s t := by
  induction e with
  | refl => exact .refl s
  | tail _ h ih => exact ih.trans h.frame

/-- The pools, their pointers with them, stay sound along a chain (R35, R37). -/
theorem Engine.poolSound {s t : State} (e : Engine own s t) (h : ∀ k, (s.pool k).Sound) (k : Nat) :
    (t.pool k).Sound := by
  induction e with
  | refl => exact h k
  | tail _ st ih =>
    cases st with
    | pointer p j place =>
      rw [State.putPool_pool_eq]
      split
      · next hk =>
        obtain ⟨rfl, -⟩ := hk
        exact ⟨ih.count, ih.distinct, place.2, fun _ => place.1⟩
      · exact ih
    | withdraw n => exact ih
    | _ => simpa [State.pool] using ih

/-- The pools' lists stay sound along a chain. -/
theorem Engine.pools {s t : State} (e : Engine own s t) (h : s.PoolsSound) : t.PoolsSound := by
  intro k
  rw [e.frame.poolLists k]
  exact h k

theorem EngineFrame.ladder {s t : State} (h : EngineFrame own s t) (l : Nat) : t.ladder l = s.ladder l := by
  unfold State.ladder; rw [h.ladders]

theorem EngineFrame.crew {s t : State} (h : EngineFrame own s t) (c : Nat) : t.crew c = s.crew c := by
  unfold State.crew; rw [h.crews]

/-- A call outside `own` is found with the same record but for its force-wide flag. -/
theorem EngineFrame.found {s t : State} (h : EngineFrame own s t) {n : Nat} (hn : ¬ own n) {c : Call}
    (hc : s.findCall n = some c) : ∃ c', t.findCall n = some c' ∧ c'.core = c.core := by
  have := h.others n hn
  rw [hc] at this
  cases ht : t.findCall n with
  | none => simp [ht] at this
  | some c' => exact ⟨c', rfl, by simpa [ht] using this⟩

end Sys2Proof.Machine
end

