-- ==== Sys2Proof/Laws/Escalation.lean ====
section
/-!
SUPPORT. What step starts, advances, declines, repeats and directed steps can do: each is a chain of engine
steps that changes call `n` alone in more than its force-wide flag.
-/

namespace Sys2Proof.Machine

/-- The call that `n` names, if there is one, is PAGING. -/
def State.PagingAt (s : State) (n : Nat) : Prop := ∀ c, s.findCall n = some c → c.state = .paging

/-- A change of the open call `n` to another open state is a chain of engine steps. -/
theorem engine_changeOwn (s : State) (n : Nat) (f : Call → Call)
    (h : ∀ c, s.findCall n = some c → c.state ≠ .closed ∧ (f c).state ≠ .closed ∧
      (f c).SameIdentity c ∧ (s.PoolsSound → c.Sound → (f c).Sound)) :
    Engine (onlyCall n) s (s.changeCall n f) :=
  engine_changeCall s n f fun c hc =>
    have k := h c hc
    ⟨k.2.2.1, .inl (State.findCall_number hc), fun _ => k.2.1, fun e => absurd e k.1, k.2.2.2⟩

/-- What `n` names after a change of call `n` is the change of what it named before. -/
theorem changeCall_at {s : State} {n : Nat} {f : Call → Call} {x : Call}
    (hx : (s.changeCall n f).findCall n = some x) (hf : ∀ c, (f c).number = c.number) :
    ∃ y, s.findCall n = some y ∧ x = f y := by
  rw [State.changeCall_findCall s n n f hf] at hx
  cases hs : s.findCall n with
  | none => simp [hs] at hx
  | some y =>
    simp only [hs, Option.map_some, if_true, Option.some.injEq] at hx
    exact ⟨y, rfl, hx.symm⟩

/-- The call stays PAGING through a change that keeps it so. -/
theorem State.PagingAt.change {s : State} {n : Nat} (h : s.PagingAt n) (f : Call → Call)
    (hn : ∀ c, (f c).number = c.number) (hf : ∀ c, c.state = .paging → (f c).state = .paging) :
    (s.changeCall n f).PagingAt n := by
  intro c hc
  rw [State.changeCall_findCall s n n f hn] at hc
  cases hs : s.findCall n with
  | none => simp [hs] at hc
  | some x =>
    simp only [hs, Option.map_some, if_true, Option.some.injEq] at hc
    exact hc ▸ hf x (h x hs)

/-- The call stays PAGING through a chain that leaves it alone. -/
theorem State.PagingAt.engine {s t : State} {n : Nat} {own : Nat → Prop} (h : s.PagingAt n)
    (hn : ¬ own n) (e : Engine own s t) : t.PagingAt n := by
  intro c hc
  have ho := e.frame.others n hn
  rw [hc] at ho
  cases hs : s.findCall n with
  | none => simp [hs] at ho
  | some x =>
    simp only [hs, Option.map_some, Option.some.injEq] at ho
    have : c.core.state = x.core.state := by rw [ho]
    exact (show c.state = x.state from this).trans (h x hs)

theorem Call.Sound.paging {c : Call} (h : c.Sound) (hp : c.state = .paging) :
    c.accepting = none ∧ c.reason = none ∧ c.arrivalDeadline = none := by
  refine ⟨?_, ?_, ?_⟩
  · have := h.accepting
    simp [hp] at this
    simpa using this
  · have := h.reason
    simp [hp] at this
    simpa using this
  · have := h.arrival
    simp [hp] at this
    exact this

/-! ### Choices and resolution (2.5, R52) -/

/-- The positions that a choice visits are those of the pool's list (R37). -/
theorem searchFrom_place {p : Pool} {x : Nat × Nat} (h : x ∈ searchFrom p) : 1 ≤ x.1 ∧ x.1 ≤ p.crews.length := by
  unfold searchFrom at h
  have hx : x ∈ (List.range' 1 p.crews.length).zip p.crews :=
    (List.mem_append.mp h).elim List.mem_of_mem_drop List.mem_of_mem_take
  have := List.mem_range'_1.mp (List.of_mem_zip hx).1
  omega

theorem engine_chooseOne {own : Nat → Prop} (s : State) (p : Nat) (a b : List Nat) :
    Engine own s (s.chooseOne p a b).2 := by
  unfold State.chooseOne
  split
  · exact .refl
  · next h => exact (EngineStep.pointer s p _ (searchFrom_place (List.mem_of_find?_eq_some h))).one

theorem engine_resolveStep {own : Nat → Prop} (s : State) (k : StepKind) :
    Engine own s (s.resolveStep k).2 := by
  cases k with
  | crew c => exact .refl
  | poolOne p => exact engine_chooseOne s p [] []
  | poolAll p => exact .refl
  | refer => exact .refl
  | noTarget => exact .refl

@[simp] theorem chooseOne_findCall (s : State) (p : Nat) (a b : List Nat) (n : Nat) :
    (s.chooseOne p a b).2.findCall n = s.findCall n := by
  unfold State.chooseOne
  split <;> simp

@[simp] theorem resolveStep_findCall (s : State) (k : StepKind) (n : Nat) :
    (s.resolveStep k).2.findCall n = s.findCall n := by
  cases k <;> simp [State.resolveStep]

/-- A choice of one crew that finds none moves nothing (R37). -/
theorem chooseOne_none {s : State} {p : Nat} {a b : List Nat} (h : (s.chooseOne p a b).1 = none) :
    s.chooseOne p a b = (none, s) := by
  unfold State.chooseOne at *
  split at h
  · rfl
  · cases h

/-- A step resolves to nothing exactly when it is empty (R52). -/
theorem resolveStep_empty (s : State) (k : StepKind) : (s.resolveStep k).1.empty = true ↔ s.emptyStep k := by
  cases k <;> simp [State.resolveStep, State.resolveCrew, State.emptyStep]
  split <;> simp_all

/-- An empty step moves nothing (R37, R54). -/
theorem resolveStep_of_empty {s : State} {k : StepKind} (h : s.emptyStep k) : (s.resolveStep k).2 = s := by
  cases k with
  | poolOne p => exact congrArg Prod.snd (chooseOne_none h)
  | _ => rfl

/-- Whether a step is empty rests on the registry and the link state alone. -/
theorem emptyStep_congr {s t : State} (hr : t.registry = s.registry) (hl : t.link.state = s.link.state)
    (k : StepKind) : t.emptyStep k ↔ s.emptyStep k := by
  have hc : ∀ c, t.crew c = s.crew c := fun c => by simp [State.crew, hr]
  have hp : ∀ p, t.pool p = s.pool p := fun p => by simp [State.pool, hr]
  have he : ∀ a b c, t.eligible a b c = s.eligible a b c := fun a b c => by simp [State.eligible, hc]
  cases k with
  | poolOne p =>
    simp only [State.emptyStep, State.chooseOne, hp, he]
    split <;> simp
  | _ => simp [State.emptyStep, State.chooseAll, hc, hp, he, hl]

/-- A step resolves at most 8 distinct targets when the pools are sound. -/
theorem resolveStep_targets (s : State) (k : StepKind) (h : s.PoolsSound) :
    (s.resolveStep k).1.targets.length ≤ Config.maxTargets ∧ (s.resolveStep k).1.targets.Nodup := by
  cases k with
  | crew c =>
    simp only [State.resolveStep, State.resolveCrew]
    split <;> simp [Config.maxTargets]
  | poolOne p =>
    simp only [State.resolveStep]
    cases (s.chooseOne p [] []).1 <;> simp [Config.maxTargets]
  | poolAll p =>
    simp only [State.resolveStep, State.chooseAll]
    exact ⟨(List.length_filter_le _ _).trans (h p).1, (h p).2.sublist List.filter_sublist⟩
  | refer => simp [State.resolveStep]
  | noTarget => simp [State.resolveStep]

theorem resolveCrew_targets (s : State) (c : Nat) :
    (s.resolveCrew c).targets.length ≤ Config.maxTargets ∧ (s.resolveCrew c).targets.Nodup := by
  unfold State.resolveCrew
  split <;> simp [Config.maxTargets]

/-! ### Step starts (R51 to R55) -/

theorem stepBookkeeping_same (now : Tick) (f i b r : Nat) (c : Call) :
    (stepBookkeeping now f i b r c).SameIdentity c := ⟨rfl, rfl, rfl, rfl, rfl, rfl, rfl, rfl⟩

/-- The bookkeeping of a step start keeps a PAGING record sound. -/
theorem stepBookkeeping_sound (now : Tick) (f i b r : Nat) (c : Call) (hp : c.state = .paging)
    (h : c.Sound) : (stepBookkeeping now f i b r c).Sound where
  accepting := h.accepting
  reason := h.reason
  arrival := h.arrival
  deadline := fun _ => hp
  nextRepeat := fun _ => hp
  beacon := h.beacon
  targetCount := by simp [stepBookkeeping]
  targetsDistinct := by simp [stepBookkeeping]
  declined := by simp [stepBookkeeping]

/-- The end of a step start changes call `n` alone. -/
theorem engine_completeStep (s : State) (n : Nat) (targets : List Nat) (beacon : Option Nat)
    (hp : s.PagingAt n) (hd : ∀ c, s.findCall n = some c → c.declined = [])
    (ht : s.PoolsSound → targets.length ≤ Config.maxTargets ∧ targets.Nodup) :
    Engine (onlyCall n) s (s.completeStep n targets beacon) := by
  unfold State.completeStep
  have e1 := engine_changeOwn s n
    (fun c => { c with targets := targets, paged := targets.foldl addToSet c.paged }) fun c hc => by
      have hs := hp c hc
      refine ⟨by simp [hs], by simp [hs], ⟨rfl, rfl, rfl, rfl, rfl, rfl, rfl, rfl⟩, fun hpool h => ?_⟩
      exact ⟨h.accepting, h.reason, h.arrival, h.deadline, h.nextRepeat, h.beacon, (ht hpool).1,
        (ht hpool).2, by simp [hd c hc]⟩
  have p1 : (s.changeCall n
      (fun c => { c with targets := targets, paged := targets.foldl addToSet c.paged })).PagingAt n :=
    hp.change _ (fun _ => rfl) (fun _ h => h)
  dsimp only
  generalize s.changeCall n
    (fun c => { c with targets := targets, paged := targets.foldl addToSet c.paged }) = s1 at e1 p1 ⊢
  have key : ∀ s2, Engine noCall s1 s2 →
      Engine (onlyCall n) s (match beacon with
        | none => s2
        | some z => s2.changeCall n (fun c => { c with heldBeacon := some z })) := by
    intro s2 e2
    have p2 : s2.PagingAt n := p1.engine (own := noCall) id e2
    have e12 := e1.trans (Engine.of_noCall e2)
    cases beacon with
    | none => exact e12
    | some z =>
      refine e12.trans (engine_changeOwn s2 n _ fun c hc => ?_)
      have hs := p2 c hc
      refine ⟨by simp [hs], by simp [hs], ⟨rfl, rfl, rfl, rfl, rfl, rfl, rfl, rfl⟩, fun _ h => ?_⟩
      exact ⟨h.accepting, h.reason, h.arrival, h.deadline, h.nextRepeat, fun _ => .inl hs, h.targetCount,
        h.targetsDistinct, h.declined⟩
  cases hc : s1.findCall n with
  | none => exact key s1 .refl
  | some c => exact key _ (engine_sendToCrews s1 _ targets)

/-- What a step start needs of the advance it may take. -/
def AdvanceOk (n : Nat) (f : State → State) : Prop :=
  ∀ s, State.PagingAt s n → Engine (onlyCall n) s (f s)

/-- A step start for a PAGING call changes that call alone. -/
theorem engine_startStep (adv : State → State) (n i : Nat) (pref : Option Nat) (s : State)
    (ha : AdvanceOk n adv) (hp : s.PagingAt n) :
    Engine (onlyCall n) s (State.startStep adv n i pref s) := by
  unfold State.startStep
  cases hc : s.findCall n with
  | none => exact .refl
  | some c =>
    dsimp only
    generalize hst : (s.ladder c.ladder).steps.getD (i - 1) .default = st
    have e1 := engine_changeOwn s n
      (stepBookkeeping s.clock (s.factor c.cls) i st.window st.repeats) fun x hx => by
        have hs := hp x hx
        exact ⟨by simp [hs], by simp [stepBookkeeping, hs], stepBookkeeping_same _ _ _ _ _ _,
          fun _ h => stepBookkeeping_sound _ _ _ _ _ _ hs h⟩
    have p1 := hp.change (stepBookkeeping s.clock (s.factor c.cls) i st.window st.repeats)
      (fun _ => rfl) (fun _ h => h)
    have d1 : ∀ x, (s.changeCall n
        (stepBookkeeping s.clock (s.factor c.cls) i st.window st.repeats)).findCall n = some x →
        x.declined = [] := by
      intro x hx
      obtain ⟨y, _, rfl⟩ := changeCall_at hx fun _ => rfl
      rfl
    generalize s.changeCall n (stepBookkeeping s.clock (s.factor c.cls) i st.window st.repeats) = s1
      at e1 p1 d1 ⊢
    have key : ∀ (r : Resolved) (pool : Option Nat) (s2 : State), Engine noCall s1 s2 →
        (∀ m, s2.findCall m = s1.findCall m) →
        (s1.PoolsSound → r.targets.length ≤ Config.maxTargets ∧ r.targets.Nodup) →
        Engine (onlyCall n) s
          (if r.empty then adv (s2.changeCall n (fun c =>
              { c with stepPool := pool, referred := r.referred }))
           else (s2.changeCall n (fun c =>
              { c with stepPool := pool, referred := r.referred })).completeStep n r.targets
                st.beacon) := by
      intro r pool s2 e2 hf ht
      have p2 : s2.PagingAt n := p1.engine (own := noCall) id e2
      have e3 := engine_changeOwn s2 n
        (fun c => { c with stepPool := pool, referred := r.referred }) fun x hx => by
          have hs := p2 x hx
          refine ⟨by simp [hs], by simp [hs], ⟨rfl, rfl, rfl, rfl, rfl, rfl, rfl, rfl⟩, fun _ h => ?_⟩
          exact ⟨h.accepting, h.reason, h.arrival, h.deadline, h.nextRepeat, h.beacon, h.targetCount,
            h.targetsDistinct, h.declined⟩
      have p3 := p2.change (fun c => { c with stepPool := pool, referred := r.referred })
        (fun _ => rfl) (fun _ h => h)
      have d3 : ∀ x, (s2.changeCall n
          (fun c => { c with stepPool := pool, referred := r.referred })).findCall n = some x →
          x.declined = [] := by
        intro x hx
        obtain ⟨y, hy, rfl⟩ := changeCall_at hx fun _ => rfl
        exact d1 y ((hf n).symm.trans hy)
      have e123 := (e1.trans (Engine.of_noCall e2)).trans e3
      split
      · exact e123.trans (ha _ p3)
      · refine e123.trans (engine_completeStep _ n r.targets st.beacon p3 d3 fun hpool => ht ?_)
        intro k
        have := hpool k
        rwa [State.changeCall_pool, e2.frame.poolLists] at this
    cases pref with
    | none =>
      exact key _ _ _ (engine_resolveStep s1 st.kind) (fun m => resolveStep_findCall s1 st.kind m)
        (resolveStep_targets s1 st.kind)
    | some p => exact key _ _ _ .refl (fun _ => rfl) fun _ => resolveCrew_targets s1 p

/-! ### The advance (R63 to R65) -/

theorem engine_exhaust (s : State) (n : Nat) (beacon : Option Nat) (hp : s.PagingAt n) :
    Engine (onlyCall n) s (s.exhaust n beacon) := by
  refine engine_changeOwn s n _ fun c hc => ?_
  have hs := hp c hc
  refine ⟨by simp [hs], by simp, ⟨rfl, rfl, rfl, rfl, rfl, rfl, rfl, rfl⟩, fun _ h => ?_⟩
  have hq := h.paging hs
  exact ⟨by simp [hq.1], by simp [hq.2.1], by simp [hq.2.2], by simp, by simp, by simp, h.targetCount,
    h.targetsDistinct, h.declined⟩

theorem engine_advance (fuel n : Nat) : AdvanceOk n (State.advance fuel n) := by
  induction fuel with
  | zero => intro s _; exact .refl
  | succ fuel ih =>
    intro s hp
    unfold State.advance
    cases hc : s.findCall n with
    | none => exact .refl
    | some c =>
      dsimp only
      have e1 := engine_changeOwn s n
        (fun c => { c with stepDeadline := none, nextRepeat := none, state := .paging }) fun x hx => by
          have hs := hp x hx
          refine ⟨by simp [hs], by simp, ⟨rfl, rfl, rfl, rfl, rfl, rfl, rfl, rfl⟩, fun _ h => ?_⟩
          have hq := h.paging hs
          exact ⟨by simp [hq.1], by simp [hq.2.1], by simp [hq.2.2], by simp, by simp, by simp,
            h.targetCount, h.targetsDistinct, h.declined⟩
      have p1 := hp.change
        (fun c => { c with stepDeadline := none, nextRepeat := none, state := .paging })
        (fun _ => rfl) (fun _ _ => rfl)
      generalize s.changeCall n
        (fun c => { c with stepDeadline := none, nextRepeat := none, state := .paging }) = s1
        at e1 p1 ⊢
      split
      · exact e1.trans (engine_startStep _ n _ none s1 ih p1)
      · split
        · have e2 := engine_changeOwn s1 n (fun c => { c with restarts := c.restarts + 1 })
            fun x hx => by
              have hs := p1 x hx
              refine ⟨by simp [hs], by simp [hs], ⟨rfl, rfl, rfl, rfl, rfl, rfl, rfl, rfl⟩,
                fun _ h => ?_⟩
              exact ⟨h.accepting, h.reason, h.arrival, h.deadline, h.nextRepeat, h.beacon,
                h.targetCount, h.targetsDistinct, h.declined⟩
          exact (e1.trans e2).trans (engine_startStep _ n 1 none _ ih
            (p1.change _ (fun _ => rfl) (fun _ h => h)))
        · exact e1.trans (engine_exhaust s1 n _ p1)

theorem engine_advanceCall (s : State) (n : Nat) (hp : s.PagingAt n) :
    Engine (onlyCall n) s (s.advanceCall n) := engine_advance _ n s hp

theorem engine_startCall (s : State) (n : Nat) (pref : Option Nat) (hp : s.PagingAt n) :
    Engine (onlyCall n) s (s.startCall n pref) := engine_startStep _ n 1 pref s (engine_advance _ n) hp

/-- A call that is PAGING with its referred flag set, advanced. -/
theorem engine_advanceReferred (n : Nat) (s : State) :
    Engine (fun _ => True) s (State.advanceReferred n s) := by
  unfold State.advanceReferred
  cases hc : s.findCall n with
  | none => exact .refl
  | some c =>
    dsimp only
    split
    · next h =>
      refine Engine.mono (fun _ _ => trivial) (engine_advanceCall s n fun x hx => ?_)
      rw [hc] at hx
      exact Option.some.inj hx ▸ h.1
    · exact .refl

theorem engine_advanceAllReferred (s : State) : Engine (fun _ => True) s s.advanceAllReferred :=
  Engine.forEach _ _ (fun n _ s => engine_advanceReferred n s) s

/-! ### Directed steps, repeats and declines (R59 to R62, R70) -/

/-- A directed step of a PAGING or EXHAUSTED call changes that call alone. -/
theorem engine_directStep (s : State) (n crew b r : Nat) (c : Call) (hc : s.findCall n = some c)
    (hs : c.state = .paging ∨ c.state = .exhausted) :
    Engine (onlyCall n) s (s.directStep n crew b r) := by
  unfold State.directStep
  rw [hc]
  dsimp only
  generalize (if c.state = .exhausted then (s.ladder c.ladder).steps.length else c.stepIndex) = i
  have e1 := engine_changeOwn s n
    (fun x => { stepBookkeeping s.clock (s.factor x.cls) i b r x with directed := true, state := .paging })
    fun x hx => by
      have hxc : x = c := Option.some.inj (hx.symm.trans hc)
      subst hxc
      refine ⟨by rcases hs with h | h <;> simp [h], by simp, ⟨rfl, rfl, rfl, rfl, rfl, rfl, rfl, rfl⟩,
        fun _ h => ?_⟩
      have ha := h.accepting
      have hr := h.reason
      have hv := h.arrival
      refine ⟨?_, ?_, ?_, by simp, by simp, by simp, by simp [stepBookkeeping],
        by simp [stepBookkeeping], by simp [stepBookkeeping]⟩
      · rcases hs with h | h <;> simp [h, stepBookkeeping] at ha ⊢ <;> simpa using ha
      · rcases hs with h | h <;> simp [h, stepBookkeeping] at hr ⊢ <;> simpa using hr
      · rcases hs with h | h <;> simp [h, stepBookkeeping] at hv ⊢ <;> simp [hv]
  have key : ∀ s1, Engine (onlyCall n) s s1 → s1.PagingAt n →
      (∀ c, s1.findCall n = some c → c.declined = []) →
      Engine (onlyCall n) s (s1.completeStep n [crew] none) := fun s1 e p d =>
    e.trans (engine_completeStep s1 n [crew] none p d fun _ => by simp [Config.maxTargets])
  refine key _ e1 ?_ ?_
  · intro x hx
    obtain ⟨y, _, rfl⟩ := changeCall_at hx fun _ => rfl
    rfl
  · intro x hx
    obtain ⟨y, _, rfl⟩ := changeCall_at hx fun _ => rfl
    rfl

/-- A repeat of a PAGING call changes that call alone. -/
theorem engine_sendRepeat (s : State) (c : Call) (hp : s.PagingAt c.number) :
    Engine (onlyCall c.number) s (s.sendRepeat c) := by
  unfold State.sendRepeat
  dsimp only
  have e1 : Engine noCall s _ := engine_sendToCrews s (pageItem .repage c.attempts c) c.undeclined
  have p1 := hp.engine (own := noCall) id e1
  refine (Engine.of_noCall e1).trans (engine_changeOwn _ _ _ fun x hx => ?_)
  have hs := p1 x hx
  refine ⟨by simp [hs], by simp [hs], ⟨rfl, rfl, rfl, rfl, rfl, rfl, rfl, rfl⟩, fun _ h => ?_⟩
  exact ⟨h.accepting, h.reason, h.arrival, h.deadline, fun _ => hs, h.beacon, h.targetCount,
    h.targetsDistinct, h.declined⟩

/-- A decline of a step target of a PAGING call changes that call alone. -/
theorem engine_engineDecline (s : State) (n crew : Nat) (c : Call) (hc : s.findCall n = some c)
    (hs : c.state = .paging) (ht : crew ∈ c.targets) :
    Engine (onlyCall n) s (s.engineDecline n crew) := by
  unfold State.engineDecline
  rw [hc]
  dsimp only
  split
  · exact .refl
  · have hp : s.PagingAt n := fun x hx => Option.some.inj (hx.symm.trans hc) ▸ hs
    have e1 := engine_changeOwn s n (fun c => { c with declined := c.declined ++ [crew] })
      fun x hx => by
        have hxc : x = c := Option.some.inj (hx.symm.trans hc)
        subst hxc
        refine ⟨by simp [hs], by simp [hs], ⟨rfl, rfl, rfl, rfl, rfl, rfl, rfl, rfl⟩, fun _ h => ?_⟩
        refine ⟨h.accepting, h.reason, h.arrival, h.deadline, h.nextRepeat, h.beacon, h.targetCount,
          h.targetsDistinct, ?_⟩
        intro y hy
        rcases List.mem_append.mp hy with h1 | h1
        · exact h.declined y h1
        · rw [List.mem_singleton.mp h1]; exact ht
    have p1 := hp.change (fun c => { c with declined := c.declined ++ [crew] }) (fun _ => rfl)
      (fun _ h => h)
    have f1 : (s.changeCall n (fun c => { c with declined := c.declined ++ [crew] })).findCall n =
        some { c with declined := c.declined ++ [crew] } := by
      rw [State.changeCall_findCall s n n (fun c => { c with declined := c.declined ++ [crew] })
        (fun _ => rfl), hc]
      simp
    generalize s.changeCall n (fun c => { c with declined := c.declined ++ [crew] }) = s1
      at e1 p1 f1 ⊢
    generalize hr : s1.replacement { c with declined := c.declined ++ [crew] } = r
    have e2 : Engine noCall s1 r.2 ∧ r.2.findCall n = s1.findCall n ∧
        (∀ x, r.1 = some x → c.targets.length < Config.maxTargets ∧ x ∉ c.targets) := by
      rw [← hr]
      unfold State.replacement
      split
      · exact ⟨.refl, rfl, by simp⟩
      · next p _ =>
        split
        · next hl =>
          refine ⟨engine_chooseOne _ _ _ _, by simp, fun x hx => ⟨hl, ?_⟩⟩
          unfold State.chooseOne at hx
          split at hx
          · simp at hx
          · next y hy =>
            have he := List.find?_some hy
            simp only [Option.some.injEq] at hx
            rw [← hx]
            simp only [State.eligible, Bool.and_eq_true] at he
            simpa using he.1.2
        · exact ⟨.refl, rfl, by simp⟩
    have p2 : r.2.PagingAt n := p1.engine (own := noCall) id e2.1
    have e12 := e1.trans (Engine.of_noCall e2.1)
    split
    · next x hx =>
      have hlt := e2.2.2 x hx
      have e3 := engine_changeOwn r.2 n
        (fun c => { c with targets := addToSet c.targets x, paged := addToSet c.paged x })
        fun y hy => by
          have hys := p2 y hy
          have hyc : y = { c with declined := c.declined ++ [crew] } := by
            rw [e2.2.1, f1] at hy
            exact (Option.some.inj hy).symm
          refine ⟨by simp [hys], by simp [hys], ⟨rfl, rfl, rfl, rfl, rfl, rfl, rfl, rfl⟩,
            fun _ h => ?_⟩
          have hnx : x ∉ y.targets := by rw [hyc]; exact hlt.2
          have hadd : addToSet y.targets x = y.targets ++ [x] := by
            simp [addToSet, hnx]
          refine ⟨h.accepting, h.reason, h.arrival, h.deadline, h.nextRepeat, h.beacon, ?_, ?_, ?_⟩
          · simp only [hadd, List.length_append, List.length_singleton]
            have : y.targets.length = c.targets.length := by rw [hyc]
            have := hlt.1
            omega
          · simp only [hadd]
            exact List.nodup_append.mpr ⟨h.targetsDistinct, by simp,
              by simpa using fun a ha (e : a = x) => hnx (e ▸ ha)⟩
          · intro z hz
            simp only [hadd]
            exact List.mem_append_left _ (h.declined z hz)
      exact (e12.trans e3).trans (Engine.of_noCall (engine_sendToCrews _ _ _))
    · split
      · exact e12.trans (engine_advanceCall r.2 n p2)
      · exact e12

end Sys2Proof.Machine
end

