-- ==== Sys2Proof/Laws/Outbound.lean ====
section
/-!
SUPPORT. What the outbound path does at the end of an event (R169): the one lemma that says all a start of a frame can
do, and what it leaves alone.
-/

namespace Sys2Proof.Machine

/-- All that the start of a frame can do: nothing in STARTING and on a busy path; else the oldest reply's next frame,
or a notice of the first entry of the list, is being sent. -/
theorem State.startFrame_cases (s : State) :
    ((s.link.state = .starting ∨ s.link.sending ≠ none ∨ s.link.replies = [] ∧ s.link.notices = []) ∧
      s.startFrame = s) ∨
    (s.link.state ≠ .starting ∧ s.link.sending = none ∧
      ((∃ r rest, s.link.replies = r :: rest ∧ s.startFrame = s.startReply r rest) ∨
        ∃ k ks, s.link.replies = [] ∧ s.link.notices = k :: ks ∧
          s.startFrame = s.setLink { s.link with sending := s.noticeFrame k, notices := ks })) := by
  unfold State.startFrame
  by_cases h : s.link.state = .starting ∨ s.link.sending ≠ none
  · left
    refine ⟨?_, if_pos h⟩
    rcases h with h | h
    · exact .inl h
    · exact .inr (.inl h)
  · rw [if_neg h]
    simp only [not_or, not_not] at h
    cases hr : s.link.replies with
    | cons r rest => exact .inr ⟨h.1, h.2, .inl ⟨r, rest, rfl, rfl⟩⟩
    | nil =>
      cases hn : s.link.notices with
      | nil => exact .inl ⟨.inr (.inr ⟨rfl, rfl⟩), rfl⟩
      | cons k ks => exact .inr ⟨h.1, h.2, .inr ⟨k, ks, rfl, rfl, rfl⟩⟩

/-- The start of a frame changes the frame being sent, the reply queue and the notice list, and nothing else. -/
theorem State.startFrame_link (s : State) :
    ∃ (f : Option Frame) (rs : List Reply) (ks : List NoticeKey),
      s.startFrame = s.setLink { s.link with sending := f, replies := rs, notices := ks } := by
  rcases s.startFrame_cases with ⟨-, h⟩ | ⟨-, -, ⟨r, rest, -, h⟩ | ⟨k, ks, -, -, h⟩⟩
  · exact ⟨s.link.sending, s.link.replies, s.link.notices, h⟩
  · exact ⟨_, _, s.link.notices, h⟩
  · exact ⟨_, s.link.replies, ks, h⟩

/-- The end of an event changes the frame being sent, the reply queue and the notice list, and nothing else. -/
theorem State.sendReady_link (s : State) :
    ∃ (f : Option Frame) (rs : List Reply) (ks : List NoticeKey),
      s.sendReady = s.setLink { s.link with sending := f, replies := rs, notices := ks } := by
  unfold State.sendReady
  by_cases h : s.link.hcts = true
  · rw [if_pos h]
    exact s.startFrame_link
  · rw [if_neg h]
    exact ⟨s.link.sending, s.link.replies, s.link.notices, rfl⟩

theorem State.sendReady_deasserted (s : State) (h : s.link.hcts = false) : s.sendReady = s := by
  simp [State.sendReady, h]

theorem State.sendReady_asserted (s : State) (h : s.link.hcts = true) : s.sendReady = s.startFrame := by
  simp [State.sendReady, h]

theorem State.sendReady_starting (s : State) (h : s.link.state = .starting) : s.sendReady = s := by
  unfold State.sendReady State.startFrame
  simp [h]

theorem State.sendReady_busy (s : State) (h : s.link.sending ≠ none) : s.sendReady = s := by
  unfold State.sendReady State.startFrame
  simp [h]

/-- With HCTS asserted nothing stays ready on a free path, a notice list of existing records granted. -/
theorem State.sendReady_eager (s : State) (hl : ∀ k ∈ s.link.notices, s.noticeFrame k ≠ none)
    (h : s.link.hcts = true) (hs : s.link.state ≠ .starting) (hf : s.sendReady.link.sending = none) :
    s.sendReady = s ∧ s.link.replies = [] ∧ s.link.notices = [] := by
  rw [s.sendReady_asserted h] at hf ⊢
  rcases s.startFrame_cases with ⟨h1 | h1 | h1, h2⟩ | ⟨-, -, ⟨r, rest, -, h2⟩ | ⟨k, ks, -, h3, h2⟩⟩
  · exact absurd h1 hs
  · rw [h2] at hf; exact absurd hf h1
  · exact ⟨h2, h1⟩
  · rw [h2] at hf; exact nomatch hf
  · rw [h2] at hf; exact absurd hf (hl k (by rw [h3]; exact List.mem_cons_self))

@[simp] theorem State.sendReady_pending (s : State) : s.sendReady.pending = s.pending := by
  obtain ⟨_, _, _, h⟩ := s.sendReady_link; rw [h]; rfl
@[simp] theorem State.sendReady_clock (s : State) : s.sendReady.clock = s.clock := by
  obtain ⟨_, _, _, h⟩ := s.sendReady_link; rw [h]; rfl
@[simp] theorem State.sendReady_book (s : State) : s.sendReady.book = s.book := by
  obtain ⟨_, _, _, h⟩ := s.sendReady_link; rw [h]; rfl
@[simp] theorem State.sendReady_registry (s : State) : s.sendReady.registry = s.registry := by
  obtain ⟨_, _, _, h⟩ := s.sendReady_link; rw [h]; rfl
@[simp] theorem State.sendReady_ladders (s : State) : s.sendReady.ladders = s.ladders := by
  obtain ⟨_, _, _, h⟩ := s.sendReady_link; rw [h]; rfl
@[simp] theorem State.sendReady_acks (s : State) : s.sendReady.acks = s.acks := by
  obtain ⟨_, _, _, h⟩ := s.sendReady_link; rw [h]; rfl
@[simp] theorem State.sendReady_sched (s : State) : s.sendReady.sched = s.sched := by
  obtain ⟨_, _, _, h⟩ := s.sendReady_link; rw [h]; rfl
@[simp] theorem State.sendReady_line (s : State) : s.sendReady.line = s.line := by
  obtain ⟨_, _, _, h⟩ := s.sendReady_link; rw [h]; rfl
@[simp] theorem State.sendReady_beacons (s : State) : s.sendReady.beacons = s.beacons := by
  obtain ⟨_, _, _, h⟩ := s.sendReady_link; rw [h]; rfl
@[simp] theorem State.sendReady_store (s : State) : s.sendReady.store = s.store := by
  obtain ⟨_, _, _, h⟩ := s.sendReady_link; rw [h]; rfl
@[simp] theorem State.sendReady_linkState (s : State) : s.sendReady.link.state = s.link.state := by
  obtain ⟨_, _, _, h⟩ := s.sendReady_link; rw [h]; rfl
@[simp] theorem State.sendReady_rx (s : State) : s.sendReady.link.rx = s.link.rx := by
  obtain ⟨_, _, _, h⟩ := s.sendReady_link; rw [h]; rfl
@[simp] theorem State.sendReady_hcts (s : State) : s.sendReady.link.hcts = s.link.hcts := by
  obtain ⟨_, _, _, h⟩ := s.sendReady_link; rw [h]; rfl
@[simp] theorem State.sendReady_silence (s : State) : s.sendReady.link.silence = s.link.silence := by
  obtain ⟨_, _, _, h⟩ := s.sendReady_link; rw [h]; rfl
@[simp] theorem State.sendReady_resetPending (s : State) : s.sendReady.link.resetPending = s.link.resetPending := by
  obtain ⟨_, _, _, h⟩ := s.sendReady_link; rw [h]; rfl
@[simp] theorem State.sendReady_rateInUse (s : State) : s.sendReady.link.rateInUse = s.link.rateInUse := by
  obtain ⟨_, _, _, h⟩ := s.sendReady_link; rw [h]; rfl

end Sys2Proof.Machine
end

