-- ==== Sys2Proof/WellFormed.lean ====
section
/-!
DEFINITION. Which commands the outside world can send: the operands that the rule of each row
admits. The meanings do not depend on this check; a command that fails it has the effect its
characters or numbers have by the rules (entries 1 and 5).
-/

namespace Sys2Proof

/-- A number of a table that counts from 1. -/
def numbered (k max : Nat) : Bool := decide (1 ≤ k ∧ k ≤ max)

/-- A payload a frame can carry (R163). -/
def payloadFits (p : List Byte) : Bool := decide (p.length ≤ Config.maxPayload)

/-- The kinds that name a request (R189). -/
def isRequestKind (kind : Byte) : Bool := decide (1 ≤ kind.toNat ∧ kind.toNat ≤ 0x1A)

/-- The operands of each row lie in the ranges its rule gives. -/
def Instr.wf : Instr → Bool
  | .powerOn | .rstnLow | .rstnHigh | .startUpLoadEnd _ | .siteClockTick => true
  | .repeatExpiry n | .stepDeadlineExpiry n | .arrivalExpiry n => numbered n 65535
  | .dedupeEntryExpiry | .locationExpiry | .silenceTimerExpiry => true
  | .airtimeDeadlineExpiry st | .pollDue st => numbered st 12
  | .beaconPeriodEnd z | .beaconOnTimeEnd z => numbered z 8
  | .raise _ p | .clear _ p | .cancel _ p | .queryCall _ p | .listCalls _ p => payloadFits p
  | .setCallpointDefine _ p => payloadFits p && decide (p[2]? ≠ some 1#8)
  | .setCallpointRemove _ p => payloadFits p && decide (p[2]? = some 1#8)
  | .setCrew _ p | .setPool _ p | .queryCrew _ p | .queryPool _ p | .queryPager _ p => payloadFits p
  | .setLadder _ p | .queryLadder _ p | .advance _ p | .direct _ p | .listAcks _ p => payloadFits p
  | .queryQueue _ p | .queryStation _ p | .queryBeacons _ p | .setBeacon _ p => payloadFits p
  | .setStationDefine _ p => payloadFits p && decide (p[1]? ≠ some 1#8)
  | .setStationRemove _ p => payloadFits p && decide (p[1]? = some 1#8)
  | .beaconHold _ p => payloadFits p && decide (p[1]? ≠ some 1#8)
  | .beaconRelease _ p => payloadFits p && decide (p[1]? = some 1#8)
  | .setParams _ p | .store _ p | .queryPart _ p | .reset _ p => payloadFits p
  | .unknownRequest kind _ p => payloadFits p && !isRequestKind kind
  | .frameBadCheck kind tag p check =>
      payloadFits p && decide (check ≠ Machine.crc (BitVec.ofNat 8 p.length :: kind :: tag :: p))
  | .wrongLength n => decide (Config.maxPayload < n.toNat)
  | .frameGap _ | .lineBreak _ | .characterError _ => true
  | .hctsAsserted | .frameSent _ | .storeComplete | .storeFailed => true
  | .pollExchangeBegin | .burstExchangeBegin | .replyWindowExpiry | .replyGapAbandon => true
  | .malformedReplyStart cs | .pollReply cs | .burstReply cs => decide (cs ≠ [])

end Sys2Proof
end

