-- ==== Sys2Proof/Laws/PerInstr.lean ====
section
/-!
SUPPORT. Statements for all commands, one lemma for each: the payload of a well-formed request fits in a
frame (R163).
-/

namespace Sys2Proof.Laws

open Sys2Proof.Machine

/-- The payload of the frame that a well-formed command brings is one a frame can carry (R163). -/
def PayloadWithinFrame.Statement (i : Instr) : Prop :=
  i.wf = true → ∀ f, Machine.Instr.frame? i = some f → f.payload.length ≤ Config.maxPayload

/-- A payload that fits its check fits a frame. -/
theorem payloadFits_iff (p : List Byte) : payloadFits p = true ↔ p.length ≤ Config.maxPayload := by
  simp [payloadFits]

/-- The shape of every request: its check holds its payload to what a frame can carry. -/
theorem of_request {i : Instr} {k t : Byte} {p : List Byte} (h : i.wf = true → payloadFits p = true)
    (hf : Machine.Instr.frame? i = some ⟨k, t, p⟩) : PayloadWithinFrame.Statement i := by
  intro hw f hg
  rw [hf] at hg
  cases hg
  exact (payloadFits_iff p).mp (h hw)

theorem PayloadWithinFrame.powerOn :
    PayloadWithinFrame.Statement .powerOn :=
  fun _ _ h => nomatch h

theorem PayloadWithinFrame.rstnLow :
    PayloadWithinFrame.Statement .rstnLow :=
  fun _ _ h => nomatch h

theorem PayloadWithinFrame.rstnHigh :
    PayloadWithinFrame.Statement .rstnHigh :=
  fun _ _ h => nomatch h

theorem PayloadWithinFrame.startUpLoadEnd (found : EepromRead) :
    PayloadWithinFrame.Statement (.startUpLoadEnd found) :=
  fun _ _ h => nomatch h

theorem PayloadWithinFrame.siteClockTick :
    PayloadWithinFrame.Statement .siteClockTick :=
  fun _ _ h => nomatch h

theorem PayloadWithinFrame.repeatExpiry (call : Nat) :
    PayloadWithinFrame.Statement (.repeatExpiry call) :=
  fun _ _ h => nomatch h

theorem PayloadWithinFrame.stepDeadlineExpiry (call : Nat) :
    PayloadWithinFrame.Statement (.stepDeadlineExpiry call) :=
  fun _ _ h => nomatch h

theorem PayloadWithinFrame.arrivalExpiry (call : Nat) :
    PayloadWithinFrame.Statement (.arrivalExpiry call) :=
  fun _ _ h => nomatch h

theorem PayloadWithinFrame.dedupeEntryExpiry :
    PayloadWithinFrame.Statement .dedupeEntryExpiry :=
  fun _ _ h => nomatch h

theorem PayloadWithinFrame.locationExpiry :
    PayloadWithinFrame.Statement .locationExpiry :=
  fun _ _ h => nomatch h

theorem PayloadWithinFrame.airtimeDeadlineExpiry (station : Nat) :
    PayloadWithinFrame.Statement (.airtimeDeadlineExpiry station) :=
  fun _ _ h => nomatch h

theorem PayloadWithinFrame.pollDue (station : Nat) :
    PayloadWithinFrame.Statement (.pollDue station) :=
  fun _ _ h => nomatch h

theorem PayloadWithinFrame.beaconPeriodEnd (beacon : Nat) :
    PayloadWithinFrame.Statement (.beaconPeriodEnd beacon) :=
  fun _ _ h => nomatch h

theorem PayloadWithinFrame.silenceTimerExpiry :
    PayloadWithinFrame.Statement .silenceTimerExpiry :=
  fun _ _ h => nomatch h

theorem PayloadWithinFrame.raise (tag : Byte) (payload : List Byte) :
    PayloadWithinFrame.Statement (.raise tag payload) :=
  of_request id rfl

theorem PayloadWithinFrame.clear (tag : Byte) (payload : List Byte) :
    PayloadWithinFrame.Statement (.clear tag payload) :=
  of_request id rfl

theorem PayloadWithinFrame.cancel (tag : Byte) (payload : List Byte) :
    PayloadWithinFrame.Statement (.cancel tag payload) :=
  of_request id rfl

theorem PayloadWithinFrame.queryCall (tag : Byte) (payload : List Byte) :
    PayloadWithinFrame.Statement (.queryCall tag payload) :=
  of_request id rfl

theorem PayloadWithinFrame.listCalls (tag : Byte) (payload : List Byte) :
    PayloadWithinFrame.Statement (.listCalls tag payload) :=
  of_request id rfl

theorem PayloadWithinFrame.setCallpointDefine (tag : Byte) (payload : List Byte) :
    PayloadWithinFrame.Statement (.setCallpointDefine tag payload) :=
  of_request (fun h => (Bool.and_eq_true_iff.mp h).1) rfl

theorem PayloadWithinFrame.setCallpointRemove (tag : Byte) (payload : List Byte) :
    PayloadWithinFrame.Statement (.setCallpointRemove tag payload) :=
  of_request (fun h => (Bool.and_eq_true_iff.mp h).1) rfl

theorem PayloadWithinFrame.setCrew (tag : Byte) (payload : List Byte) :
    PayloadWithinFrame.Statement (.setCrew tag payload) :=
  of_request id rfl

theorem PayloadWithinFrame.setPool (tag : Byte) (payload : List Byte) :
    PayloadWithinFrame.Statement (.setPool tag payload) :=
  of_request id rfl

theorem PayloadWithinFrame.queryCrew (tag : Byte) (payload : List Byte) :
    PayloadWithinFrame.Statement (.queryCrew tag payload) :=
  of_request id rfl

theorem PayloadWithinFrame.queryPool (tag : Byte) (payload : List Byte) :
    PayloadWithinFrame.Statement (.queryPool tag payload) :=
  of_request id rfl

theorem PayloadWithinFrame.queryPager (tag : Byte) (payload : List Byte) :
    PayloadWithinFrame.Statement (.queryPager tag payload) :=
  of_request id rfl

theorem PayloadWithinFrame.setLadder (tag : Byte) (payload : List Byte) :
    PayloadWithinFrame.Statement (.setLadder tag payload) :=
  of_request id rfl

theorem PayloadWithinFrame.queryLadder (tag : Byte) (payload : List Byte) :
    PayloadWithinFrame.Statement (.queryLadder tag payload) :=
  of_request id rfl

theorem PayloadWithinFrame.advance (tag : Byte) (payload : List Byte) :
    PayloadWithinFrame.Statement (.advance tag payload) :=
  of_request id rfl

theorem PayloadWithinFrame.direct (tag : Byte) (payload : List Byte) :
    PayloadWithinFrame.Statement (.direct tag payload) :=
  of_request id rfl

theorem PayloadWithinFrame.listAcks (tag : Byte) (payload : List Byte) :
    PayloadWithinFrame.Statement (.listAcks tag payload) :=
  of_request id rfl

theorem PayloadWithinFrame.queryQueue (tag : Byte) (payload : List Byte) :
    PayloadWithinFrame.Statement (.queryQueue tag payload) :=
  of_request id rfl

theorem PayloadWithinFrame.setStationDefine (tag : Byte) (payload : List Byte) :
    PayloadWithinFrame.Statement (.setStationDefine tag payload) :=
  of_request (fun h => (Bool.and_eq_true_iff.mp h).1) rfl

theorem PayloadWithinFrame.setStationRemove (tag : Byte) (payload : List Byte) :
    PayloadWithinFrame.Statement (.setStationRemove tag payload) :=
  of_request (fun h => (Bool.and_eq_true_iff.mp h).1) rfl

theorem PayloadWithinFrame.queryStation (tag : Byte) (payload : List Byte) :
    PayloadWithinFrame.Statement (.queryStation tag payload) :=
  of_request id rfl

theorem PayloadWithinFrame.beaconHold (tag : Byte) (payload : List Byte) :
    PayloadWithinFrame.Statement (.beaconHold tag payload) :=
  of_request (fun h => (Bool.and_eq_true_iff.mp h).1) rfl

theorem PayloadWithinFrame.beaconRelease (tag : Byte) (payload : List Byte) :
    PayloadWithinFrame.Statement (.beaconRelease tag payload) :=
  of_request (fun h => (Bool.and_eq_true_iff.mp h).1) rfl

theorem PayloadWithinFrame.queryBeacons (tag : Byte) (payload : List Byte) :
    PayloadWithinFrame.Statement (.queryBeacons tag payload) :=
  of_request id rfl

theorem PayloadWithinFrame.setBeacon (tag : Byte) (payload : List Byte) :
    PayloadWithinFrame.Statement (.setBeacon tag payload) :=
  of_request id rfl

theorem PayloadWithinFrame.setParams (tag : Byte) (payload : List Byte) :
    PayloadWithinFrame.Statement (.setParams tag payload) :=
  of_request id rfl

theorem PayloadWithinFrame.store (tag : Byte) (payload : List Byte) :
    PayloadWithinFrame.Statement (.store tag payload) :=
  of_request id rfl

theorem PayloadWithinFrame.queryPart (tag : Byte) (payload : List Byte) :
    PayloadWithinFrame.Statement (.queryPart tag payload) :=
  of_request id rfl

theorem PayloadWithinFrame.reset (tag : Byte) (payload : List Byte) :
    PayloadWithinFrame.Statement (.reset tag payload) :=
  of_request id rfl

theorem PayloadWithinFrame.unknownRequest (kind tag : Byte) (payload : List Byte) :
    PayloadWithinFrame.Statement (.unknownRequest kind tag payload) :=
  of_request (fun h => (Bool.and_eq_true_iff.mp h).1) rfl

theorem PayloadWithinFrame.frameBadCheck (kind tag : Byte) (payload : List Byte) (check : BitVec 16) :
    PayloadWithinFrame.Statement (.frameBadCheck kind tag payload check) :=
  fun _ _ h => nomatch h

theorem PayloadWithinFrame.wrongLength (length : Byte) :
    PayloadWithinFrame.Statement (.wrongLength length) :=
  fun _ _ h => nomatch h

theorem PayloadWithinFrame.frameGap (chars : List Byte) :
    PayloadWithinFrame.Statement (.frameGap chars) :=
  fun _ _ h => nomatch h

theorem PayloadWithinFrame.lineBreak (chars : List Byte) :
    PayloadWithinFrame.Statement (.lineBreak chars) :=
  fun _ _ h => nomatch h

theorem PayloadWithinFrame.characterError (chars : List Byte) :
    PayloadWithinFrame.Statement (.characterError chars) :=
  fun _ _ h => nomatch h

theorem PayloadWithinFrame.hctsAsserted :
    PayloadWithinFrame.Statement .hctsAsserted :=
  fun _ _ h => nomatch h

theorem PayloadWithinFrame.frameSent (hcts : Bool) :
    PayloadWithinFrame.Statement (.frameSent hcts) :=
  fun _ _ h => nomatch h

theorem PayloadWithinFrame.storeComplete :
    PayloadWithinFrame.Statement .storeComplete :=
  fun _ _ h => nomatch h

theorem PayloadWithinFrame.storeFailed :
    PayloadWithinFrame.Statement .storeFailed :=
  fun _ _ h => nomatch h

theorem PayloadWithinFrame.pollExchangeBegin :
    PayloadWithinFrame.Statement .pollExchangeBegin :=
  fun _ _ h => nomatch h

theorem PayloadWithinFrame.burstExchangeBegin :
    PayloadWithinFrame.Statement .burstExchangeBegin :=
  fun _ _ h => nomatch h

theorem PayloadWithinFrame.replyWindowExpiry :
    PayloadWithinFrame.Statement .replyWindowExpiry :=
  fun _ _ h => nomatch h

theorem PayloadWithinFrame.replyGapAbandon :
    PayloadWithinFrame.Statement .replyGapAbandon :=
  fun _ _ h => nomatch h

theorem PayloadWithinFrame.malformedReplyStart (chars : List Char9) :
    PayloadWithinFrame.Statement (.malformedReplyStart chars) :=
  fun _ _ h => nomatch h

theorem PayloadWithinFrame.pollReply (chars : List Char9) :
    PayloadWithinFrame.Statement (.pollReply chars) :=
  fun _ _ h => nomatch h

theorem PayloadWithinFrame.burstReply (chars : List Char9) :
    PayloadWithinFrame.Statement (.burstReply chars) :=
  fun _ _ h => nomatch h

theorem PayloadWithinFrame.beaconOnTimeEnd (beacon : Nat) :
    PayloadWithinFrame.Statement (.beaconOnTimeEnd beacon) :=
  fun _ _ h => nomatch h

end Sys2Proof.Laws
end

