-- ==== Sys2Proof/Laws/Receiver.lean ====
section
/-!
SUPPORT. What the receiver makes of whole frames and of noise, and what taking a request comes to.
-/

namespace Sys2Proof.Machine

theorem encCheck_length (r : BitVec 16) : (encCheck r).length = 2 := rfl

/-- The characters of a frame after its start character, with whatever follows, read as that frame. -/
theorem readFrame_encode (k t : Byte) (p more : List Byte) (h : p.length ≤ Config.maxPayload) :
    readFrame ((BitVec.ofNat 8 p.length :: k :: t :: p) ++
      (encCheck (crc (BitVec.ofNat 8 p.length :: k :: t :: p)) ++ more)) = .valid ⟨k, t, p⟩ := by
  have hn : (BitVec.ofNat 8 p.length).toNat = p.length := by
    simp only [Config.maxPayload] at h
    simp only [BitVec.toNat_ofNat]
    omega
  simp only [Config.maxPayload] at h
  have h1 : ¬ 250 < p.length := by omega
  generalize hc : crc (BitVec.ofNat 8 p.length :: k :: t :: p) = c
  have htake : (k :: t :: (p ++ (encCheck c ++ more))).take (p.length + 2) = k :: t :: p := by
    simp
  have hdrop : (k :: t :: (p ++ (encCheck c ++ more))).drop (p.length + 2) = encCheck c ++ more := by
    simp
  have hlen : ¬ (k :: t :: (p ++ (encCheck c ++ more))).length < p.length + 4 := by
    simp [encCheck_length]
    omega
  simp only [List.cons_append, readFrame, hn, Config.maxPayload, h1, if_false, hlen, htake, hdrop, hc]
  simp [encCheck, enc2]

/-- Characters of a valid frame still to be passed over are passed over. -/
theorem scan_skip (xs more : List Byte) : scan xs.length (xs ++ more) = scan 0 more := by
  induction xs with
  | nil => rfl
  | cons x xs ih => exact ih

/-- A whole frame is handed on, and the receiver goes on with the characters after it. -/
theorem scan_encode (k t : Byte) (p more : List Byte) (h : p.length ≤ Config.maxPayload) :
    scan 0 (encodeFrame k t p ++ more) = (⟨k, t, p⟩ :: (scan 0 more).1, (scan 0 more).2) := by
  generalize hb : (BitVec.ofNat 8 p.length :: k :: t :: p : List Byte) = body
  have hr : readFrame (body ++ (encCheck (crc body) ++ more)) = .valid ⟨k, t, p⟩ := by
    rw [← hb]; exact readFrame_encode k t p more h
  have hl : (body ++ encCheck (crc body)).length = p.length + 5 := by
    rw [← hb]; simp [encCheck_length]
  have he : encodeFrame k t p = Config.startChar :: (body ++ encCheck (crc body)) := by
    rw [← hb]; rfl
  rw [he, List.cons_append, List.append_assoc]
  simp only [scan, hr, if_true]
  rw [← hl, ← List.append_assoc, scan_skip]

/-- Characters that are no start character are passed over while the receiver searches. -/
theorem scan_noise (noise more : List Byte) (h : Config.startChar ∉ noise) :
    scan 0 (noise ++ more) = scan 0 more := by
  induction noise with
  | nil => rfl
  | cons c cs ih =>
    simp only [List.mem_cons, not_or] at h
    simp [scan, Ne.symm h.1, ih h.2]

/-- With a searching receiver and a running controller, a whole frame is acted on. -/
theorem receiveFrame_whole (s : State) (k t : Byte) (p : List Byte) (hr : s.store.rstnLow = false)
    (hx : s.link.rx = .searching) (hp : p.length ≤ Config.maxPayload) :
    s.receiveFrame k t p = State.takeFrame ⟨k, t, p⟩ s := by
  have h := scan_encode k t p [] hp
  rw [List.append_nil] at h
  unfold State.receiveFrame State.receiveChars
  simp only [hr, Bool.false_eq_true, if_false, hx, Receiver.take, h]
  show State.takeFrame ⟨k, t, p⟩ { s with link := { s.link with rx := .searching } } = _
  rw [← hx]

/-- Hearing the plant computer out of STARTING. -/
theorem heardHost_eq (s : State) (h : s.link.state ≠ .starting) : s.heardHost = s.heard := by
  unfold State.heardHost State.heard State.armSilence State.post tickAfter
  by_cases hl : s.link.state = .local
  · by_cases hm : NoticeKey.part ∈ s.link.notices <;> simp [State.setLink, hl, hm]
  · have ho : s.link.state = .online := by
      cases hs : s.link.state <;> simp_all
    simp [State.setLink, ho]

/-- A request taken is served in the state in which the plant computer has been heard, and its reply joins
the queue, to start at once where the path is free and HCTS asserted. -/
theorem receiveFrame_taken (s : State) (k t : Byte) (p : List Byte) (h : s.TakesRequests)
    (hp : p.length ≤ Config.maxPayload) :
    s.receiveFrame k t p =
      (serve k p s.heard).2.2.replying (replyKind k) t (serve k p s.heard).1 (serve k p s.heard).2.1 := by
  rw [receiveFrame_whole s k t p h.running h.searching hp]
  have hroom : ¬ Config.maxReplies ≤ s.heard.link.replies.length := Nat.not_le.mpr h.room
  have hres : s.heard.link.resetPending = false := h.noReset
  simp only [State.takeFrame, State.actOnFrame, h.started, if_false, heardHost_eq s h.started, hroom, hres,
    Bool.false_eq_true, State.takeRequest]
  rfl

end Sys2Proof.Machine
end

