-- ==== Sys2Proof/Laws/Serial.lean ====
section
/-!
SUPPORT. What a reader of HRXD or SRXD makes of the levels of the line, and what the receiver of the host link does
with it.
-/

namespace Sys2Proof.Machine

theorem charLevels_length {w : Nat} (c : BitVec w) : (charLevels c).length = w + 2 := by simp [charLevels]

theorem hostBits_length (c : Byte) : (hostBits c).length = 10 := rfl

theorem lineBits_length (c : Char9) : (lineBits c).length = 11 := rfl

/-- Levels are read one run after another. -/
theorem readLevels_append (w : Nat) (r : CharReader) (a b : List LineLevel) :
    readLevels w r (a ++ b) =
      ((readLevels w r a).1 ++ (readLevels w (readLevels w r a).2 b).1,
        (readLevels w (readLevels w r a).2 b).2) := by
  induction a generalizing r with
  | nil => simp [readLevels]
  | cons l ls ih => simp [readLevels, ih, List.append_assoc]

/-- The data bits of a host link character carry it. -/
theorem bitsOf_byte (c : Byte) : bitsOf 8 ((List.range 8).map (fun i => bitLevel (c.getLsbD i))) = c := by
  have h : ∀ k : Fin 256, bitsOf 8 ((List.range 8).map (fun i => bitLevel ((BitVec.ofFin (w := 8) k).getLsbD i))) =
      BitVec.ofFin (w := 8) k := by decide +kernel
  exact h c.toFin

/-- The data bits of a station line character carry it. -/
theorem bitsOf_char9 (c : Char9) : bitsOf 9 ((List.range 9).map (fun i => bitLevel (c.getLsbD i))) = c := by
  have h : ∀ k : Fin 512, bitsOf 9 ((List.range 9).map (fun i => bitLevel ((BitVec.ofFin (w := 9) k).getLsbD i))) =
      BitVec.ofFin (w := 9) k := by decide +kernel
  exact h c.toFin

/-- Within a character the reader takes up data bits until it has `w` of them. -/
theorem readLevels_data (w : Nat) (got data rest : List LineLevel) (h : got.length + data.length ≤ w) :
    readLevels w (.within got) (data ++ rest) = readLevels w (.within (got ++ data)) rest := by
  induction data generalizing got with
  | nil => simp
  | cons l ls ih =>
    simp only [List.length_cons] at h
    have hl : got.length < w := by omega
    simp only [List.cons_append, readLevels, CharReader.next, hl, if_true, Option.toList, List.nil_append]
    rw [ih (got ++ [l]) (by simp; omega)]
    simp

/-- The bit times of a character bring it, with its stop bit, to an idle reader. -/
theorem readLevels_charLevels {w : Nat} (c : BitVec w)
    (h : bitsOf w ((List.range w).map (fun i => bitLevel (c.getLsbD i))) = c) :
    readLevels w .idle (charLevels c) = ([(c, .mark)], .idle) := by
  unfold charLevels
  simp only [readLevels, CharReader.next]
  rw [readLevels_data w [] _ _ (by simp)]
  simp [readLevels, CharReader.next, h]

/-- The ten bit times of a host link character bring it to an idle reader. -/
theorem readHrxd_hostBits (c : Byte) : readHrxd .idle (hostBits c) = ([.character c], .idle) := by
  simp [readHrxd, hostBits, readLevels_charLevels c (bitsOf_byte c), hostSignal]

/-- The eleven bit times of a station line character bring it to an idle reader. -/
theorem readSrxd_lineBits (c : Char9) : readSrxd .idle (lineBits c) = ([c], .idle) := by
  simp [readSrxd, lineBits, readLevels_charLevels c (bitsOf_char9 c), lineCharacter]

@[simp] theorem State.takeSignal_character (c : Byte) (s : State) :
    State.takeSignal (.character c) s = s.receiveChars [c] := rfl

@[simp] theorem State.takeSignal_characterError (s : State) :
    State.takeSignal .characterError s = s.dropFrame := rfl

@[simp] theorem State.takeSignal_lineBreak (s : State) : State.takeSignal .lineBreak s = s.dropFrame := rfl

@[simp] theorem State.dropFrame_rx (s : State) : s.dropFrame.link.rx = .searching := rfl

end Sys2Proof.Machine
end

