-- ==== Sys2Proof/Laws/Widening.lean ====
section
/-!
SUPPORT. What losing pages does to their calls (R105, R106, R111, R123), and what entering a record does to the
recent-acknowledgement list (R76, R77).
-/

namespace Sys2Proof.Machine

variable {s t u : State} {p q : Call → Bool}

/-! ### Widening -/

theorem State.WidensOnly.refl (s : State) : s.WidensOnly s (fun _ => false) where
  calls := fun m => by cases s.findCall m <;> rfl
  posted := fun _ _ _ h => nomatch h
  only := fun _ h => .inl h

/-- Which calls are widened may be said in other words. -/
theorem State.WidensOnly.congr (h : s.WidensOnly t p) (e : ∀ m c, s.findCall m = some c → p c = q c) :
    s.WidensOnly t q where
  calls := fun m => by
    rw [h.calls m]
    cases hm : s.findCall m with
    | none => rfl
    | some c => simp [e m c hm]
  posted := fun m c hm hq => h.posted m c hm ((e m c hm).trans hq)
  only := fun k hk => (h.only k hk).imp_right fun ⟨m, c, hk, hm, hp, hf⟩ =>
    ⟨m, c, hk, hm, (e m c hm).symm.trans hp, hf⟩

/-- Operations that leave the call book and the notice list alone take no part. -/
theorem State.WidensOnly.frame (h : s.WidensOnly t p) (hb : u.book = t.book)
    (hn : u.link.notices = t.link.notices) : s.WidensOnly u p where
  calls := fun m => by rw [← h.calls m]; simp [State.findCall, hb]
  posted := fun m c hm hp hf => hn ▸ h.posted m c hm hp hf
  only := fun k hk => h.only k (hn ▸ hk)

/-- One widening after another, the second choosing its calls without regard to the flag. -/
theorem State.WidensOnly.trans (h : s.WidensOnly t p) (h' : t.WidensOnly u q)
    (hn : ∀ k ∈ t.link.notices, k ∈ u.link.notices)
    (hq : ∀ c : Call, q { c with forceWide := true } = q c) : s.WidensOnly u (fun c => p c || q c) where
  calls := fun m => by
    rw [h'.calls m, h.calls m]
    cases s.findCall m with
    | none => rfl
    | some c => by_cases hp : p c = true <;> by_cases hq' : q c = true <;> simp [hp, hq', hq]
  posted := fun m c hm hpq hf => by
    by_cases hp : p c = true
    · exact hn _ (h.posted m c hm hp hf)
    · have ht : t.findCall m = some c := by simp [h.calls m, hm, hp]
      exact h'.posted m c ht (by simpa [hp] using hpq) hf
  only := fun k hk => by
    rcases h'.only k hk with hk | ⟨m, c, rfl, hm, hqc, hf⟩
    · exact (h.only k hk).imp_right fun ⟨m, c, hk, hm, hp, hf⟩ => ⟨m, c, hk, hm, by simp [hp], hf⟩
    · refine .inr ⟨m, ?_⟩
      rw [h.calls m] at hm
      cases hs : s.findCall m with
      | none => rw [hs] at hm; exact nomatch hm
      | some d =>
        rw [hs] at hm
        by_cases hp : p d = true
        · simp only [hp, Option.map_some, if_true, Option.some.injEq] at hm
          subst hm
          exact nomatch hf
        · simp only [hp, Option.map_some, Bool.false_eq_true, if_false, Option.some.injEq] at hm
          subst hm
          exact ⟨d, rfl, rfl, by simp [hqc], hf⟩

theorem State.notices_post (s : State) (k : NoticeKey) :
    (s.post k).link.notices = if k ∈ s.link.notices then s.link.notices else s.link.notices ++ [k] := by
  unfold State.post
  by_cases h : k ∈ s.link.notices <;> simp [h, State.setLink]

/-- Setting the force-wide flag of a number's call (R106). -/
theorem State.setForceWide_widens (s : State) (n : Nat) :
    s.WidensOnly (s.setForceWide n) (fun c => decide (c.number = n)) ∧
      ∀ k ∈ s.link.notices, k ∈ (s.setForceWide n).link.notices := by
  unfold State.setForceWide
  cases hc : s.findCall n with
  | none =>
    refine ⟨(State.WidensOnly.refl s).congr fun m c hm => ?_, fun _ h => h⟩
    have : c.number ≠ n := by
      intro e
      rw [State.findCall_number hm] at e
      subst e
      exact nomatch hc.symm.trans hm
    simp [this]
  | some c =>
    have hn := State.findCall_number hc
    by_cases hf : c.forceWide = true
    · simp only [hf, if_true]
      refine ⟨⟨⟨fun m => ?_, fun m d hm hd hfd => ?_⟩, fun _ h => .inl h⟩, fun _ h => h⟩
      · cases hm : s.findCall m with
        | none => rfl
        | some d =>
          by_cases hd : d.number = n
          · have : d = c := by
              have := State.findCall_number hm
              have hmn : m = n := this.symm.trans hd
              subst hmn
              exact Option.some.inj (hm.symm.trans hc)
            subst this
            obtain ⟨⟩ := d
            simp_all
          · simp [hd]
      · have hmn : m = n := (State.findCall_number hm).symm.trans (of_decide_eq_true hd)
        subst hmn
        rw [Option.some.inj (hm.symm.trans hc), hf] at hfd
        exact nomatch hfd
    · simp only [hf, Bool.false_eq_true, if_false]
      have hl : (s.changeCall n fun c => { c with forceWide := true }).link.notices =
          if NoticeKey.call n ∈ s.link.notices then s.link.notices else s.link.notices ++ [.call n] := by
        unfold State.changeCall
        simp only [hc, State.notices_post, State.putCall_link]
      refine ⟨⟨⟨fun m => ?_, fun m d hm hd _ => ?_⟩, fun k hk => ?_⟩, fun k hk => ?_⟩
      · rw [State.changeCall_findCall s n m (fun c => { c with forceWide := true }) (fun _ => rfl)]
        cases hm : s.findCall m with
        | none => rfl
        | some d => simp [State.findCall_number hm]
      · have hmn : m = n := (State.findCall_number hm).symm.trans (of_decide_eq_true hd)
        subst hmn
        exact State.changeCall_posts s m _ hc
      · rw [hl] at hk
        split at hk
        · exact .inl hk
        · rcases List.mem_append.mp hk with hk | hk
          · exact .inl hk
          · exact .inr ⟨n, c, List.mem_singleton.mp hk, hc, by simp [hn], by simpa using hf⟩
      · rw [hl]
        split
        · exact hk
        · exact List.mem_append_left _ hk

/-- Losing the item that placing a copy lost, if it lost one (R111). -/
theorem State.loseItem_widens (s : State) (o : Option Item) :
    s.WidensOnly (s.loseItem o) (lostPageOf o.toList) ∧
      ∀ k ∈ s.link.notices, k ∈ (s.loseItem o).link.notices := by
  cases o with
  | none => exact ⟨(State.WidensOnly.refl s).congr fun _ _ _ => rfl, fun _ h => h⟩
  | some i =>
    dsimp only [State.loseItem]
    by_cases hi : i.asks = true
    · simp only [hi, if_true]
      refine ⟨(s.setForceWide_widens i.call).1.congr fun m c _ => ?_, (s.setForceWide_widens i.call).2⟩
      have : i.kind = .page ∨ i.kind = .repage := by simpa [Item.asks] using hi
      by_cases e : c.number = i.call
      · simp [lostPageOf, this, e]
      · simp [lostPageOf, e, Ne.symm e]
    · have : ¬ (i.kind = .page ∨ i.kind = .repage) := by simpa [Item.asks] using hi
      simp only [hi, Bool.false_eq_true, if_false]
      exact ⟨(State.WidensOnly.refl s).congr fun m c _ => by simp [lostPageOf, this], fun _ h => h⟩

/-- Losing the pages of a station that leaves service, one by one (R123). -/
theorem State.widenAll_widens (lost : List Item) (s : State) :
    s.WidensOnly (forEach lost State.widenIfOpen s)
        (fun c => lostPageOf lost c && decide (c.state ≠ .closed)) ∧
      ∀ k ∈ s.link.notices, k ∈ (forEach lost State.widenIfOpen s).link.notices := by
  have one : ∀ (i : Item) (s : State),
      s.WidensOnly (State.widenIfOpen i s) (fun c => lostPageOf [i] c && decide (c.state ≠ .closed)) ∧
        ∀ k ∈ s.link.notices, k ∈ (State.widenIfOpen i s).link.notices := by
    intro i s
    have none_of : (∀ m c, s.findCall m = some c → (lostPageOf [i] c && decide (c.state ≠ .closed)) = false) →
        s.WidensOnly s (fun c => lostPageOf [i] c && decide (c.state ≠ .closed)) ∧
          ∀ k ∈ s.link.notices, k ∈ s.link.notices := fun h =>
      ⟨(State.WidensOnly.refl s).congr fun m c hm => (h m c hm).symm, fun _ h => h⟩
    unfold State.widenIfOpen
    by_cases hi : i.asks = true
    · have hk : i.kind = .page ∨ i.kind = .repage := by simpa [Item.asks] using hi
      simp only [hi, if_true]
      have named : ∀ m c, s.findCall m = some c → i.call = c.number → s.findCall i.call = some c := by
        intro m c hm e
        rw [e, State.findCall_number hm, hm]
      cases hc : s.findCall i.call with
      | none =>
        refine none_of fun m c hm => ?_
        have : i.call ≠ c.number := fun e => nomatch hc.symm.trans (named m c hm e)
        simp [lostPageOf, this]
      | some d =>
        by_cases hd : d.state = .closed
        · simp only [hd, if_true]
          refine none_of fun m c hm => ?_
          by_cases e : i.call = c.number
          · have : c = d := Option.some.inj ((named m c hm e).symm.trans hc)
            subst this
            simp [hd]
          · simp [lostPageOf, e]
        · simp only [hd, if_false]
          refine ⟨(s.setForceWide_widens i.call).1.congr fun m c hm => ?_, (s.setForceWide_widens i.call).2⟩
          by_cases e : i.call = c.number
          · have : c = d := Option.some.inj ((named m c hm e).symm.trans hc)
            subst this
            simp [lostPageOf, hk, e.symm, hd]
          · simp [lostPageOf, e, Ne.symm e]
    · have hk : ¬ (i.kind = .page ∨ i.kind = .repage) := by simpa [Item.asks] using hi
      simp only [hi, Bool.false_eq_true, if_false]
      exact none_of fun m c _ => by simp [lostPageOf, hk]
  induction lost generalizing s with
  | nil => exact ⟨(State.WidensOnly.refl s).congr fun _ _ _ => rfl, fun _ h => h⟩
  | cons i is ih =>
    obtain ⟨h1, n1⟩ := one i s
    obtain ⟨h2, n2⟩ := ih (State.widenIfOpen i s)
    refine ⟨(h1.trans h2 n2 fun _ => rfl).congr fun m c _ => ?_, fun k hk => n2 k (n1 k hk)⟩
    have : lostPageOf (i :: is) c = (lostPageOf [i] c || lostPageOf is c) := by
      simp only [lostPageOf, List.any_cons, List.any_nil, Bool.or_false]
    rw [this, Bool.and_or_distrib_right]

/-! ### The recent-acknowledgement list -/

/-- An entry takes its place by age (R77). -/
theorem insertAck_split (now : Tick) (e : AckEntry) (acks : List AckEntry) :
    ∃ before after, acks = before ++ after ∧ insertAck now e acks = before ++ e :: after ∧
      (∀ x ∈ before, e.age now ≤ x.age now) ∧ ∀ x ∈ after.head?, x.age now < e.age now := by
  induction acks with
  | nil => exact ⟨[], [], rfl, rfl, by simp, by simp⟩
  | cons x xs ih =>
    unfold insertAck
    by_cases h : e.age now ≤ x.age now
    · obtain ⟨b, a, hxs, hi, hb, ha⟩ := ih
      refine ⟨x :: b, a, by simp [hxs], by simp [h, hi], ?_, ha⟩
      simpa [h] using hb
    · exact ⟨[], x :: xs, rfl, by simp [h], by simp, by simpa using h⟩

/-- A list of acknowledgements is sound (R76). -/
def acksSound (acks : List AckEntry) : Prop :=
  acks.length ≤ Config.maxAcks ∧
    acks.Pairwise (fun a b => ¬ (a.pager = b.pager ∧ a.call = b.call ∧ a.kind = b.kind))

theorem insertAck_sound {now : Tick} {e : AckEntry} {acks : List AckEntry} (h : acksSound acks)
    (room : acks.length < Config.maxAcks) (new : ∀ x ∈ acks, x.sameKey e = false) :
    acksSound (insertAck now e acks) := by
  obtain ⟨b, a, rfl, hi, -, -⟩ := insertAck_split now e acks
  rw [hi]
  refine ⟨by simp only [List.length_append, List.length_cons] at room ⊢; omega, ?_⟩
  have hn : ∀ x ∈ b ++ a, ¬ (x.pager = e.pager ∧ x.call = e.call ∧ x.kind = e.kind) := fun x hx => by
    simpa [AckEntry.sameKey] using new x hx
  refine (List.pairwise_middle ?_).mpr (List.pairwise_cons.mpr ⟨?_, h.2⟩)
  · rintro x y hxy ⟨h1, h2, h3⟩
    exact hxy ⟨h1.symm, h2.symm, h3.symm⟩
  · rintro x hx ⟨h1, h2, h3⟩
    exact hn x hx ⟨h1.symm, h2.symm, h3.symm⟩

/-- Entering a record that is no duplicate keeps the list sound (R76, R77). -/
theorem enterAck_sound {now : Tick} {window : Nat} {e : AckEntry} {acks : List AckEntry} (h : acksSound acks)
    (new : ∀ x ∈ acks, x.sameKey e = false) : acksSound (enterAck now window e acks) := by
  unfold enterAck
  split
  · exact h
  · split
    · next room => exact insertAck_sound h room new
    · split
      · exact h
      · refine insertAck_sound ⟨?_, h.2.sublist (List.drop_sublist _ _)⟩ ?_ fun x hx =>
          new x (List.drop_subset _ _ hx)
        · have := h.1
          simp only [List.length_drop]; omega
        · have := h.1
          simp only [List.length_drop, Config.maxAcks] at this ⊢; omega

end Sys2Proof.Machine
end

