-- ==== Sys2Proof/Tests/Slice0.lean ====
section
/-!
SUPPORT. Tests of the model against the worked examples and tables of spec/ (each names its source), the refusals of the
well-formedness check, and the witnesses: for each statement of Certificates/Slice0/Obligations.lean that has hypotheses,
a concrete state and operands that meet them.
-/

-- One test after another, so that a small machine has the memory for it.
set_option Elab.async false

open Sys2Proof Sys2Proof.Machine

namespace Sys2Proof.Tests

/-! ### The bench: ladder 4, crews 12 and 20 to 22, and pool 3 of the example of chapter 3 -/

/-- The ladder 4 of the example of chapter 3. -/
def ladder4 : Ladder :=
  ⟨[⟨.crew 12, 90, 2, none⟩, ⟨.poolOne 3, 120, 1, some 5⟩, ⟨.refer, 300, 0, none⟩], 600, 1, some 3⟩

/-- A defined crew on duty, with no name, these members and home station 5. -/
def dutyCrew (members : List Nat) : Crew := ⟨true, [], .onDuty, members, 5, []⟩

/-- The site of the example of chapter 3 at clock value `now` with these call records: the link is ONLINE, stations 5 and 6
are defined in group 2, pool 3 lists crews 20, 21, 22 with its pointer at 1, and pager 421 was last heard as in the
example of chapter 4. -/
def site (now : Tick) (calls : List Call) : State :=
  { State.reset with
    clock := now
    book := ⟨calls, [], 88, [⟨5, 1, 4, .urgent, [], .idle⟩], []⟩
    registry :=
      { crews := setRow (setRow (setRow (setRow (Vector.replicate 48 .undefined) 12 (dutyCrew [301, 302]))
          20 (dutyCrew [401])) 21 (dutyCrew [411, 412])) 22 (dutyCrew [421])
        pools := setRow (Vector.replicate 16 .empty) 3 ⟨[20, 21, 22], 1⟩
        directory := [⟨301, 12, none⟩, ⟨302, 12, none⟩, ⟨401, 20, none⟩, ⟨411, 21, none⟩, ⟨412, 21, none⟩,
          ⟨421, 22, some ⟨5, 7, 50880#24⟩⟩] }
    ladders := setRow (Vector.replicate 16 Ladder.default) 4 ladder4
    line :=
      { stations := setRow (setRow (Vector.replicate 12 .undefined)
          5 ⟨true, 2, .inService, .inService, 0, some 60000#24, false, 0#8, false, [6]⟩)
          6 ⟨true, 2, .inService, .inService, 0, some 60000#24, false, 0#8, false, []⟩
        followUps := [], burstWaits := [], exchange := none }
    beacons := Vector.replicate 8 ⟨.low, [], none, none, .low⟩
    link := { Link.reset with state := .online, silence := some 70000#24 } }

/-- Call 88 of the example, step 1 running since 50,000. -/
def call88 : Call :=
  { newCall 88 .plantComputer 5 .urgent 4 [] none 50000#24 with
    window := 540, interval := 180, repeats := 2, attempts := 1, stepDeadline := some 50540#24
    nextRepeat := some 50180#24, targets := [12], paged := [12] }

/-- Call 88 after the decline of crew 21 at 50,700. -/
def call88step2 : Call :=
  { call88 with
    stepIndex := 2, stepPool := some 3, stepStart := 50540#24, window := 720, interval := 360, repeats := 1
    attempts := 1, stepDeadline := some 51260#24, nextRepeat := some 50900#24, targets := [21, 22]
    declined := [21], paged := [12, 21, 22] }

/-- Call 88 accepted by crew 22 at 51,010. -/
def call88taken : Call :=
  { call88step2 with
    state := .accepted, accepting := some 22, acceptTick := some 51004#24, stepDeadline := none
    nextRepeat := none, arrivalDeadline := some 54610#24 }

/-- The site with call 88 accepted and on crew 22's accepted list. -/
def siteTaken (now : Tick) : State :=
  (site now [call88taken]).putCrew 22 { dutyCrew [421] with accepted := [88] }

/-- The state a command leaves; a command that did not answer next leaves the state it found. -/
def after (i : Instr) (s : State) : State :=
  match exec i s with
  | .next t => t
  | _ => s

/-- The last reply queued: its kind, its result and its contents. -/
def lastReply (s : State) : Option (Byte × Result × List Byte) :=
  s.link.replies.getLast?.map (fun r => (r.kind, r.result, r.contents))

theorem site_takes (now : Tick) (calls : List Call) : (site now calls).TakesRequests :=
  ⟨rfl, rfl, (fun h => nomatch h), Nat.zero_lt_succ 7, rfl⟩

/-! ### Commands against the examples of the spec -/

-- Chapter 3, tick 50,000: RAISE of an URGENT call on ladder 4 from station 5.
theorem test_raise_starts_step_one :
    (after (.raise 1#8 [1#8, 4#8, 5#8, 0#8, 0#8]) { site 50000#24 [] with
      book := { (site 50000#24 []).book with counter := 87 } }).findCall 88 = some call88 := by
  decide +kernel

-- R4: with the counter at 65534 and records 65535 and 1 in the book, the next call is numbered 2.
theorem test_next_number_wraps :
    (CallBook.nextNumber ⟨[{ call88 with number := 1 }, { call88 with number := 65535 }], [], 65534, [], []⟩) = 2 := by
  decide +kernel

-- Chapter 3, tick 50,180: the first repeat.
theorem test_repeat_expiry :
    ((after (.repeatExpiry 88) (site 50180#24 [call88])).findCall 88).map (fun c => (c.attempts, c.nextRepeat)) =
      some (2, some 50360#24) := by
  decide +kernel

-- Chapter 3, tick 50,540: the step deadline starts step 2, and pool 3 gives crew 21.
theorem test_step_deadline_takes_the_pool :
    let t := after (.stepDeadlineExpiry 88) (site 50540#24 [call88])
    (t.findCall 88).map (fun c => (c.stepIndex, c.stepDeadline, c.nextRepeat, c.targets, c.paged)) =
      some (2, some 51260#24, some 50900#24, [21], [12, 21]) ∧ (t.pool 3).pointer = 2 := by
  decide +kernel

-- Chapter 8, tick 50,540: call 88 joins beacon 5, which restarts with class URGENT.
theorem test_step_beacon_drives :
    (after (.stepDeadlineExpiry 88) (site 50540#24 [call88])).beacon 5 =
      ⟨.low, [88], none, some ⟨.urgent, 8, 4, 50540#24⟩, .high⟩ := by
  decide +kernel

-- Chapter 3, tick 54,610: the arrival deadline releases crew 22 and starts the REFER step.
theorem test_arrival_expiry_refers :
    let t := after (.arrivalExpiry 88) (siteTaken 54610#24)
    (t.findCall 88).map (fun c => (c.state, c.stepIndex, c.referred, c.stepDeadline, c.accepting)) =
      some (.paging, 3, true, some 56410#24, none) ∧ (t.crew 22).accepted = [] := by
  decide +kernel

-- Chapter 3, "If the crew had not arrived": the deadline of step 3 restarts the ladder.
theorem test_restart_pages_step_one_again :
    ((after (.stepDeadlineExpiry 88) (site 56410#24 [{ call88 with
        stepIndex := 3, referred := true, targets := [], stepDeadline := some 56410#24, nextRepeat := none }])).findCall
      88).map (fun c => (c.restarts, c.stepIndex, c.targets, c.referred)) = some (1, 1, [12], false) := by
  decide +kernel

-- Chapter 3: the second time the call is EXHAUSTED with step index 3 and the exhaust beacon 3.
theorem test_exhaustion :
    ((after (.advance 9#8 [0#8, 88#8]) (site 58000#24 [{ call88 with
        stepIndex := 3, restarts := 1, targets := [] }])).findCall 88).map
      (fun c => (c.state, c.stepIndex, c.stepDeadline, c.heldBeacon)) =
      some (.exhausted, 3, none, some 3) := by
  decide +kernel

-- R54 and "cleared" of 00_scope.md: an empty POOL_ONE step that ends in exhaustion leaves no step pool.
theorem test_exhaustion_clears_the_pool_of_an_empty_step :
    ((after (.stepDeadlineExpiry 88) { site 50540#24 [call88] with
        ladders := setRow (site 0#24 []).ladders 4 ⟨[⟨.crew 12, 90, 2, none⟩, ⟨.poolOne 1, 120, 1, none⟩], 600, 0, none⟩
      }).findCall 88).map (fun c => (c.state, c.stepIndex, c.stepPool, c.targets)) =
      some (.exhausted, 2, none, []) := by
  decide +kernel

-- R70: DIRECT of an EXHAUSTED call takes the ladder's length as its step index.
theorem test_direct_from_exhausted :
    ((after (.direct 9#8 [0#8, 88#8, 21#8, 0#8, 90#8, 2#8]) (site 58000#24 [{ call88 with
        state := .exhausted, stepIndex := 7, stepDeadline := none, nextRepeat := none }])).findCall 88).map
      (fun c => (c.state, c.stepIndex, c.directed, c.targets, c.window)) =
      some (.paging, 3, true, [21], 540) := by
  decide +kernel

-- R18, R19: CLEAR of call number 0, and CANCEL of a number that names no record.
theorem test_clear_and_cancel_find_the_call :
    lastReply (after (.clear 7#8 [0#8, 0#8]) (site 1#24 [call88])) = some (0x82#8, .badValue, []) ∧
      lastReply (after (.cancel 7#8 [0#8, 89#8]) (site 1#24 [call88])) = some (0x83#8, .noSuchCall, []) := by
  decide +kernel

-- R19, R20: CANCEL of the accepted call 88.
theorem test_cancel_closes :
    let t := after (.cancel 7#8 [0#8, 88#8]) (siteTaken 52000#24)
    (t.findCall 88).map (fun c => (c.state, c.reason, c.accepting, c.closeTick)) =
      some (.closed, some .cancelled, none, some 52000#24) ∧
      (t.crew 22).accepted = [] ∧ t.book.closedOrder = [88] := by
  decide +kernel

-- Chapter 4: the ACCEPT of pager 421 heard by station 5, taken at 51,010 with age 6, in a RESYNC poll reply.
theorem test_poll_reply_accepts :
    let s := site 51010#24 [call88step2]
    let x : Exchange := ⟨.poll, 5, 0#8, true, [], false, false⟩
    let t := after (.pollReply (commandChars 9 5 ([0#8, 17#8, 1#8] ++
      [17#8, 0#8, 1#8, 0xA5#8, 0#8, 88#8, 0#8, 9#8, 6#8]))) { s with line := { s.line with exchange := some x } }
    (t.findCall 88).map (fun c => (c.state, c.accepting, c.acceptTick, c.arrivalDeadline)) =
      some (.accepted, some 22, some 51004#24, some 54610#24) ∧ (t.crew 22).accepted = [88] ∧
      (t.pagerEntry? 421).bind PagerEntry.location = some ⟨5, 9, 51004#24⟩ ∧ (t.station 5).mark = 17#8 := by
  decide +kernel

-- Chapter 5, "updates to one location": the four records for pager 411, each on the location before it.
theorem test_location_updates :
    let at' := fun (old new : Location) =>
      ((({ State.reset with registry := { Registry.reset with directory := [⟨411, 21, some old⟩] } }).seePager 411
        new).pagerEntry? 411).bind PagerEntry.location
    at' ⟨3, 10, 60000#24⟩ ⟨4, 6, 60010#24⟩ = some ⟨3, 10, 60000#24⟩ ∧
      at' ⟨3, 10, 60000#24⟩ ⟨2, 12, 59990#24⟩ = some ⟨2, 12, 59990#24⟩ ∧
      at' ⟨2, 12, 59990#24⟩ ⟨3, 5, 60020#24⟩ = some ⟨3, 5, 60020#24⟩ ∧
      at' ⟨3, 5, 60020#24⟩ ⟨7, 15, 59995#24⟩ = some ⟨3, 5, 60020#24⟩ := by
  decide +kernel

/-- The stations of the example "one pager through a step" of chapter 5, and the location of pager 411. -/
def exampleStations : State :=
  let up : Station := ⟨true, 1, .inService, .inService, 0, none, false, 0#8, false, []⟩
  { State.reset with
    registry := { Registry.reset with directory := [⟨411, 21, some ⟨3, 10, 60000#24⟩⟩] }
    line := { Line.reset with
      stations := setRow (setRow (setRow (setRow (setRow (setRow (Vector.replicate 12 up) 3
        { up with neighbours := [8, 4, 2] }) 4 { up with service := .suspect }) 8 { up with service := .silent })
        10 { up with service := .outOfService }) 11 .undefined) 12 .undefined } }

-- Chapter 5: the station sets of the four attempts.
theorem test_station_sets :
    let set := fun (now : Tick) (kind : ItemKind) (k : Nat) =>
      ({ exampleStations with clock := now }).chooseStations ⟨411, 140, kind, .urgent, [], k⟩
    set 60100#24 .page 0 = [3] ∧ set 60280#24 .repage 1 = [2, 3, 4] ∧
      set 60460#24 .repage 2 = [1, 2, 3, 4, 5, 6, 7, 9] ∧ set 60500#24 .standDown 0 = [2, 3, 4] := by
  decide +kernel

-- Chapter 2, "rotation in a shared pool": pool 3 of crews 7, 2, 11, 4; crew 2 off duty, crew 4 with a call.
theorem test_rotation :
    let s := { State.reset with registry := { Registry.reset with
      crews := setRow (setRow (setRow (setRow (Vector.replicate 48 .undefined) 7 (dutyCrew [])) 11 (dutyCrew []))
        4 { dutyCrew [] with accepted := [9] }) 2 { dutyCrew [] with duty := .offDuty }
      pools := setRow (Vector.replicate 16 .empty) 3 ⟨[7, 2, 11, 4], 4⟩ } }
    let s1 := (s.chooseOne 3 [] []).2
    let s2 := (s1.chooseOne 3 [7] [7]).2
    (s.chooseOne 3 [] []).1 = some 7 ∧ (s1.pool 3).pointer = 1 ∧ (s1.chooseOne 3 [7] [7]).1 = some 11 ∧
      (s2.pool 3).pointer = 3 ∧ (s2.chooseOne 3 [] []).1 = some 7 := by
  decide +kernel

-- Chapter 6, tick 80,001: item G (HAZARD) goes after A (HAZARD) and before B (URGENT).
theorem test_placing_by_class :
    let a : Item := ⟨421, 201, .page, .hazard, [], 0⟩
    let b : Item := ⟨611, 93, .page, .urgent, [], 0⟩
    let g : Item := ⟨422, 201, .repage, .hazard, [], 1⟩
    ((⟨[], [a, b], none, .granted, false⟩ : StationQueue).accept g).1.ordered = [a, g, b] := by
  decide +kernel

-- Chapter 7, "losing and regaining a station": no reply at 40,020 with 2 misses takes station 9 to SILENT.
theorem test_third_miss_is_silent :
    let x : Exchange := ⟨.poll, 9, 0#8, false, [], false, false⟩
    let s := (site 40020#24 []).putStation 9 ⟨true, 1, .inService, .suspect, 2, none, false, 5#8, false, []⟩
    ((after .replyGapAbandon { s with line := { s.line with exchange := some x } }).station 9) =
      ⟨true, 1, .inService, .silent, 3, some 40052#24, false, 5#8, true, []⟩ := by
  decide +kernel

-- Chapter 7: at 40,000 the first miss makes it SUSPECT, due again at 40,004.
theorem test_first_miss_is_suspect :
    let x : Exchange := ⟨.poll, 9, 0#8, false, [], false, false⟩
    let s := (site 40000#24 []).putStation 9 ⟨true, 1, .inService, .inService, 0, none, false, 5#8, false, []⟩
    ((after .replyWindowExpiry { s with line := { s.line with exchange := some x } }).station 9) =
      ⟨true, 1, .inService, .suspect, 1, some 40004#24, false, 5#8, false, []⟩ := by
  decide +kernel

-- Chapter 8: at 50,544 the position is 4 and the output LOW; at 50,548 a new period begins and it is HIGH.
theorem test_beacon_phase :
    let s := fun (now : Tick) => (site now []).putBeacon 5 ⟨.low, [], some .urgent, some ⟨.urgent, 8, 4, 50540#24⟩, .high⟩
    ((after (.beaconOnTimeEnd 5) (s 50544#24)).beacon 5).output = .low ∧
      ((after (.beaconPeriodEnd 5) (s 50548#24)).beacon 5) =
        ⟨.low, [], some .urgent, some ⟨.urgent, 8, 4, 50548#24⟩, .high⟩ ∧
      ((after (.beaconOnTimeEnd 5) (s 50543#24)).beacon 5).output = .high := by
  decide +kernel

-- R48: arrival 10 s and window 1,000 s and 9 repeats are stored as 30 s, 900 s and 7.
theorem test_set_ladder_clamps :
    (after (.setLadder 3#8 [2#8, 0#8, 10#8, 0#8, 0#8, 1#8, 4#8, 0#8, 3#8, 232#8, 9#8, 0#8]) (site 1#24 [])).ladder 2 =
      ⟨[⟨.noTarget, 900, 7, none⟩], 30, 0, none⟩ := by
  decide +kernel

-- R43: the clock goes from 16,777,215 to 0.
theorem test_clock_wraps : (after .siteClockTick (site 16777215#24 [])).clock = 0#24 := by decide +kernel

-- R185, R186, R187: a STORE runs, and ends OK.
theorem test_store_completes :
    let t := after .storeComplete (after (.store 5#8 []) (site 1#24 []))
    t.store.state = .idle ∧ t.store.lastResult = .ok ∧ t.store.eeprom = .valid (site 1#24 []).image := by
  decide +kernel

-- R180: a marker that is erased gives BLANK, and R182's default rate is in use.
theorem test_blank_load :
    let t := after (.startUpLoadEnd .held) State.reset
    t.store.loadResult = some .blank ∧ t.link.state = .online ∧ t.link.rateInUse = 19200 := by
  decide +kernel

-- R163, R166, R189, R191: the characters of a LIST_CALLS frame queue its reply, with kind 0x85 and result OK.
theorem test_list_calls_by_its_frame :
    ((site 1#24 []).receiveChars (encodeFrame 5#8 42#8 [])).link.replies = [⟨0x85#8, 42#8, .ok, [0#8], 1⟩] := by
  decide +kernel

-- R162: start bit, data bits least significant first, stop bit; the levels read back (1 is mark: entry 35).
theorem test_bits_of_a_character :
    hostBits 0x16#8 = [.space, .space, .mark, .mark, .space, .mark, .space, .space, .space, .mark] ∧
      readHrxd .idle ([.mark] ++ hostBits 0x16#8 ++ hostBits 0x7E#8) =
        ([.character 0x16#8, .character 0x7E#8], .idle) := by
  decide

-- R162: a stop bit at the space level is a character error; with all data bits zero a break, until the mark level.
theorem test_character_error_and_break :
    readHrxd .idle ((hostBits 0x80#8).take 9 ++ [.space, .mark]) = ([.characterError], .idle) ∧
      readHrxd .idle (List.replicate 25 .space ++ [.mark]) = ([.lineBreak], .idle) := by
  decide

-- R164: a valid frame inside a damaged one is found when its characters are examined again.
theorem test_frame_inside_a_damaged_one :
    (scan 0 ([0x7E#8, 10#8, 1#8, 2#8] ++ encodeFrame 5#8 42#8 [] ++ [0#8, 0#8, 0#8, 0#8, 0#8, 0#8])).1 =
      [⟨5#8, 42#8, []⟩] := by
  decide +kernel

-- R164: 251 in the place of the length discards the frame at once.
theorem test_wrong_length : after (.wrongLength 251#8) (site 1#24 []) = site 1#24 [] := by decide +kernel

-- R190: CLEAR with one character is BAD_LENGTH. R166: kind 0x1B is UNKNOWN_REQUEST, answered as 0x9B.
theorem test_bad_requests :
    lastReply (after (.clear 7#8 [0#8]) (site 1#24 [])) = some (0x82#8, .badLength, []) ∧
      lastReply (after (.unknownRequest 0x1B#8 7#8 []) (site 1#24 [])) = some (0x9B#8, .unknownRequest, []) := by
  decide +kernel

-- R35, R39: a pool of a crew named twice is refused; the pointer of a new list is its last position.
theorem test_set_pool :
    lastReply (after (.setPool 7#8 [1#8, 2#8, 20#8, 20#8]) (site 1#24 [])) = some (0x88#8, .badValue, []) ∧
      (after (.setPool 7#8 [1#8, 2#8, 22#8, 20#8]) (site 1#24 [])).pool 1 = ⟨[22, 20], 2⟩ := by
  decide +kernel

-- R29, R33: crew 12's members become 302 and 303; 301 leaves the directory and 303 joins it.
theorem test_set_crew_members :
    let t := after (.setCrew 7#8 [12#8, 8#8, 1#8, 1#8, 5#8, 0#8, 2#8, 1#8, 46#8, 1#8, 47#8]) (site 1#24 [])
    (t.crew 12).members = [302, 303] ∧ t.pagerEntry? 301 = none ∧ t.pagerEntry? 303 = some ⟨303, 12, none⟩ := by
  decide +kernel

-- R12, R13: a press at the IDLE entry (5, 1) raises call 89 and the entry goes OPEN.
theorem test_press_raises :
    let t := (site 1#24 []).press 5 1
    (t.findCall 89).map Call.source = some (.callPoint 5 1) ∧
      (t.findPoint 5 1).map CallPoint.state = some (.opened 89) := by
  decide +kernel

-- R12: DEFINE of the entry (5, 2), and REMOVE of it when it is not there.
theorem test_set_callpoint :
    ((after (.setCallpointDefine 7#8 [5#8, 2#8, 0#8, 4#8, 2#8, 1#8, 0x41#8]) (site 1#24 [])).findPoint 5 2) =
        some ⟨5, 2, 4, .hazard, [0x41#8], .idle⟩ ∧
      lastReply (after (.setCallpointRemove 7#8 [5#8, 2#8, 1#8, 4#8, 2#8, 0#8]) (site 1#24 [])) =
        some (0x86#8, .noSuchEntry, []) := by
  decide +kernel

-- R138, R149: a station defined IN_SERVICE is due at once with RESYNC pending; a removed one has the undefined values.
theorem test_set_station :
    (after (.setStationDefine 7#8 [1#8, 0#8, 3#8, 0#8, 1#8, 5#8]) (site 9#24 [])).station 1 =
        ⟨true, 3, .inService, .inService, 0, some 9#24, true, 0#8, true, [5]⟩ ∧
      (after (.setStationRemove 7#8 [5#8, 1#8, 1#8, 0#8, 0#8]) (site 9#24 [])).station 5 = .undefined := by
  decide +kernel

-- R155, R158, R159: a held beacon flashes from its active level, which SET_BEACON turns round.
theorem test_beacon_hold :
    let t := after (.beaconHold 7#8 [2#8, 0#8, 3#8]) (site 9#24 [])
    (t.beacon 2).output = .high ∧ ((after (.setBeacon 7#8 [2#8, 1#8]) t).beacon 2).output = .low ∧
      ((after (.beaconRelease 7#8 [2#8, 1#8, 0#8]) t).beacon 2).driving = none := by
  decide +kernel

-- R182: SET_PARAMS of the silence limit 1 s and the rate 40,000 bit/s stores 5 s and 38,400 bit/s.
theorem test_set_params :
    let p := (after (.setParams 7#8 ([0x00#8, 0x80#8, 0x40#8] ++ paramsReply { Params.default with
      silence := 1, rate := 40000 })) (site 9#24 [])).store.params
    p = { Params.default with silence := 5, rate := 38400 } := by
  decide +kernel

-- R174: the silence timer takes the link to LOCAL, and the part record is posted.
theorem test_silence :
    let t := after .silenceTimerExpiry (site 70000#24 [])
    t.link.state = .local ∧ t.link.silence = none ∧ t.link.notices = [.part] := by
  decide +kernel

-- R122: the airtime deadline of station 5 frees the channel and sets the wait-for-idle mark.
theorem test_airtime_deadline :
    let s := site 80000#24 []
    let t := after (.airtimeDeadlineExpiry 5) ((s.putQueue 5 ⟨[], [], none, .onAir, false⟩).putGroup 2
      ⟨some 5, 5, 1, some 80000#24⟩)
    (t.group 2).holder = none ∧ (t.queue 5).waitIdle = true ∧ (t.station 5).misses = 1 := by
  decide +kernel

-- R76, R97: entries older than the dedupe window (80 ticks) leave; a location of age 2^23 becomes absent.
theorem test_ageing :
    (after .dedupeEntryExpiry { site 181#24 [] with
      acks := [⟨1, 2, .accept, 100#24, 5⟩, ⟨1, 3, .accept, 101#24, 5⟩] }).acks = [⟨1, 3, .accept, 101#24, 5⟩] ∧
      ((after .locationExpiry (site (50880#24 + 8388608#24) [])).pagerEntry? 421).bind PagerEntry.location = none ∧
      ((after .locationExpiry (site (50880#24 + 8388607#24) [])).pagerEntry? 421).bind PagerEntry.location ≠ none := by
  decide +kernel

-- R117, R135: the six first items of station 5's queue leave in a burst with the next burst id.
theorem test_burst_takes_six_items :
    let items := (List.range 7).map (fun k => (⟨k + 1, 88, .page, .urgent, [], 0⟩ : Item))
    let s := (site 1#24 []).putQueue 5 ⟨[], items, none, .granted, false⟩
    let t := after .burstExchangeBegin { s with
      sched := { s.sched with burstId := 37#8 }, line := { s.line with burstWaits := [5] } }
    (t.queue 5).flight = some ⟨37#8, items.take 6⟩ ∧ (t.queue 5).ordered = items.drop 6 ∧ t.sched.burstId = 38#8 := by
  decide +kernel

-- R135, R118: TAKEN puts the station ON_AIR and arms the airtime deadline, 40 ticks on.
theorem test_burst_taken :
    let s := ((site 1#24 []).putQueue 5 ⟨[], [], some ⟨37#8, []⟩, .inFlight, false⟩).putGroup 2 ⟨some 5, 5, 1, none⟩
    let x : Exchange := ⟨.burst, 5, 37#8, false, [], false, false⟩
    let t := after (.burstReply (commandChars 10 5 [37#8, 0#8])) { s with line := { s.line with exchange := some x } }
    (t.queue 5).phase = .onAir ∧ (t.group 2).deadline = some 41#24 ∧ t.line.exchange = none := by
  decide +kernel

-- R141, R144: a due poll waits, and the POLL of a station with RESYNC pending carries it.
theorem test_poll_begins :
    let s := (site 9#24 []).putStation 5 ⟨true, 2, .inService, .inService, 0, some 9#24, false, 3#8, true, []⟩
    let t := after .pollExchangeBegin (after (.pollDue 5) s)
    (t.line.exchange.map Exchange.command) = some (commandChars 1 5 [1#8, 3#8]) ∧ (t.station 5).due = none := by
  decide +kernel

-- R169, R171: on a free path a notice starts, and leaves the list.
theorem test_notice_starts :
    let s := site 9#24 [call88]
    let t := after .hctsAsserted { s with link := { s.link with notices := [.call 88, .part] } }
    (t.link.sending.map Frame.chars) = some (encodeFrame 0x40#8 0#8 (callNotice call88)) ∧
      t.link.notices = [.part] := by
  decide +kernel

-- R169: with HCTS asserted and the path free, a reply starts as the request is taken, and the queue is empty again.
theorem test_ready_reply_starts :
    let s := site 9#24 []
    let t := after (.listCalls 42#8 []) { s with link := { s.link with hcts := true } }
    (t.link.sending.map Frame.chars) = some (encodeFrame 0x85#8 42#8 [0#8, 0x81#8, 0#8]) ∧ t.link.replies = [] := by
  decide +kernel

-- R180: a frame begun before a change of the rate is discarded when it is complete, and the same frame is not without one.
theorem test_frame_across_a_change_of_rate :
    let f := encodeFrame 5#8 42#8 []
    let s := fun (changed : Bool) => { site 9#24 [] with
      link := { (site 9#24 []).link with rx := .receiving (f.take 3) changed } }
    (after (.frameGap (f.drop 3)) (s true)).link.replies = [] ∧
      (after (.frameGap (f.drop 3)) (s false)).link.replies = [⟨0x85#8, 42#8, .ok, [0#8], 1⟩] := by
  decide +kernel

-- R130, R193: the address character 0x115 of a POLL to station 5 on STXD, one character time after SDEN was asserted
-- (bit order and levels: entries 35 and 37).
theorem test_bits_on_the_station_line :
    let t := after .pollExchangeBegin (after (.pollDue 5) (site 60000#24 []))
    (List.range 23).map t.stxd = List.replicate 11 .mark ++
      [.space, .mark, .space, .mark, .space, .mark, .space, .space, .space, .mark, .mark] ++ [.space] := by
  decide +kernel

-- R188, divided by hand: the check of no character is the preset, and that of one character 0 is 0xE1F0.
theorem test_check :
    crc [] = 0xFFFF#16 ∧ crc [0#8] = 0xE1F0#16 ∧ encCheck 0xE1F0#16 = [0xE1#8, 0xF0#8] := by
  decide +kernel

-- R131: a POLL has 5 characters (R193), so SDEN is asserted for 6 character times; R152: after a reset it is released.
theorem test_sden :
    let t := after .pollExchangeBegin (after (.pollDue 5) (site 60000#24 []))
    t.sden 0 = true ∧ t.sden 5 = true ∧ t.sden 6 = false ∧ State.reset.sden 0 = false := by
  decide +kernel

-- R169: HCTS found deasserted on a free path holds off the frame that an event then makes ready.
theorem test_hcts_lost_on_a_free_path :
    let s := site 9#24 []
    let asserted := { s with link := { s.link with hcts := true } }
    (after (.listCalls 1#8 []) asserted).link.sending.isSome = true ∧
      (after (.listCalls 1#8 []) (after (.frameSent false) asserted)).link.sending = none := by
  decide +kernel

-- R7: the end of the notice of a CLOSED call frees its record.
theorem test_sent_notice_frees :
    let s := site 9#24 [{ call88 with state := .closed, reason := some .cleared }]
    let t := after (.frameSent false) { s with
      book := { s.book with closedOrder := [88] }, link := { s.link with sending := some ⟨[], some 88, false⟩ } }
    t.book.calls = [] ∧ t.book.closedOrder = [] ∧ t.link.sending = none := by
  decide +kernel

-- R179: RSTN low empties the book and marks the cause; the queue of commands stays.
theorem test_rstn_low :
    let t := after .rstnLow { site 9#24 [call88] with pending := [.rstnHigh] }
    t.book.calls = [] ∧ t.store.cause = .resetLine ∧ t.pending = [.rstnHigh] ∧ t.link.state = .starting := by
  decide +kernel

/-! ### No word spells a command; ill-formed commands are refused by the check -/

theorem test_no_table_word : decodeTableWord 8 0 = none ∧ decodeTableWord 32 0xFFFFFFFF = none := ⟨rfl, rfl⟩

theorem test_wf_refuses :
    Instr.wf (.repeatExpiry 0) = false ∧ Instr.wf (.stepDeadlineExpiry 65536) = false ∧
      Instr.wf (.arrivalExpiry 0) = false ∧ Instr.wf (.airtimeDeadlineExpiry 13) = false ∧
      Instr.wf (.pollDue 0) = false ∧ Instr.wf (.beaconPeriodEnd 9) = false ∧
      Instr.wf (.beaconOnTimeEnd 0) = false ∧ Instr.wf (.raise 0#8 (List.replicate 251 0#8)) = false ∧
      Instr.wf (.setCallpointDefine 0#8 [1#8, 1#8, 1#8]) = false ∧
      Instr.wf (.setCallpointRemove 0#8 [1#8, 1#8, 0#8]) = false ∧
      Instr.wf (.setStationDefine 0#8 [1#8, 1#8]) = false ∧ Instr.wf (.setStationRemove 0#8 [1#8]) = false ∧
      Instr.wf (.beaconHold 0#8 [1#8, 1#8, 0#8]) = false ∧ Instr.wf (.beaconRelease 0#8 [1#8, 0#8, 0#8]) = false ∧
      Instr.wf (.unknownRequest 0x1A#8 0#8 []) = false ∧ Instr.wf (.wrongLength 250#8) = false ∧
      Instr.wf (.frameBadCheck 5#8 0#8 [] (crc [0#8, 5#8, 0#8])) = false ∧ Instr.wf (.pollReply []) = false ∧
      Instr.wf (.burstReply []) = false ∧ Instr.wf (.malformedReplyStart []) = false := by
  decide +kernel

end Sys2Proof.Tests
end

