-- ==== Sys2Proof/Tests/Witnesses.lean ====
section
/-!
SUPPORT. Witnesses: for each statement of Certificates/Slice0/Obligations.lean that has hypotheses, a concrete state and
operands that meet them, with each clause at a boundary of its range.
-/

-- One test after another, so that a small machine has the memory for it.
set_option Elab.async false

open Sys2Proof Sys2Proof.Machine

namespace Sys2Proof.Tests

/-! ### The machine, its resets and its store -/

theorem witness_StepTakesTheFrontCommand :
    ({ site 1#24 [] with pending := [.siteClockTick, .rstnLow] } : State).pending = .siteClockTick :: [.rstnLow] ∧
      (site 1#24 []).pending = [] := ⟨rfl, rfl⟩

/-- The site with the RESET reply on its way out. -/
def resetting : State :=
  { site 1#24 [] with link := { (site 1#24 []).link with sending := some ⟨[0#8], none, true⟩ } }

theorem witness_ResetsResetEveryBlock :
    (site 1#24 []).store.rstnLow = false ∧ (after .rstnLow (site 1#24 [])).store.rstnLow = true ∧
      resetting.link.sending = some ⟨[0#8], none, true⟩ := ⟨rfl, rfl, rfl⟩

/-- A site that is loading, with this EEPROM. -/
def loading (e : Eeprom) : State := State.afterReset .powerOn [] e false

theorem witness_StartUpLoadInstallsTheTables :
    (loading (.valid (site 1#24 []).image)).link.state = .starting ∧ (loading .erased).store.rstnLow = false ∧
      (site 1#24 []).image.consistent = true ∧ (loading .erased).store.eeprom = .erased ∧
      (loading .invalid).store.eeprom = .invalid ∧
      ({ (site 1#24 []).image with points := [⟨13, 1, 1, .urgent, []⟩] } : Image).consistent = false := by
  decide +kernel

/-- The site while a STORE runs. -/
def saving : State := after (.store 5#8 []) (site 1#24 [])

theorem witness_StoreAndResetBeginAndEnd :
    (site 1#24 []).TakesRequests ∧ (site 1#24 []).store.state = .idle ∧ saving.store.state = .saving ∧
      saving.store.copy = some (site 1#24 []).image :=
  ⟨site_takes _ _, rfl, by decide +kernel, by decide +kernel⟩

theorem witness_StoredTablesComeBackAfterAReset :
    (site 1#24 [call88]).TakesRequests ∧ (site 1#24 [call88]).store.state = .idle ∧
      (site 1#24 [call88]).TablesSound :=
  ⟨site_takes _ _, rfl, by unfold State.TablesSound; decide +kernel⟩

theorem witness_OnlyTicksAndResetsMoveTheClock :
    (site 16777215#24 []).store.rstnLow = false ∧ (after .rstnLow (site 1#24 [])).store.rstnLow = true ∧
      ∃ t, exec .siteClockTick (site 16777215#24 []) = .next t :=
  ⟨rfl, by decide +kernel, _, rfl⟩

/-! ### The host link -/

/-- The characters after the start character of a frame with a wrong check whose payload is a whole LIST_CALLS frame. -/
def damagedBody : List Byte := BitVec.ofNat 8 6 :: 9#8 :: 1#8 :: (encodeFrame 5#8 1#8 [] ++ encCheck 0#16)

theorem witness_ReceiverHandsOnExactlyTheFramesSent :
    (encodeFrame 5#8 1#8 []).length = 6 ∧
    (0#16 : BitVec 16) ≠ crc (BitVec.ofNat 8 6 :: 9#8 :: 1#8 :: encodeFrame 5#8 1#8 []) ∧
    scan 0 (Config.startChar :: damagedBody) = ([⟨5#8, 1#8, []⟩], []) ∧
    250 < (251#8 : Byte).toNat ∧
    (∀ x ∈ [([0x55#8], (⟨5#8, 1#8, []⟩ : RxFrame)), ([], ⟨4#8, 2#8, List.replicate 250 0x7E#8⟩)],
      Config.startChar ∉ x.1 ∧ x.2.payload.length ≤ 250) ∧ Config.startChar ∉ [0x7D#8] ∧
    (site 1#24 []).link.sending = none ∧ (site 1#24 []).link.rx = .searching ∧
    ({ (site 1#24 []) with link := { (site 1#24 []).link with sending := some ⟨[0x7E#8, 1#8], none, false⟩ } } :
      State).htxd 11 = .mark ∧
    Instr.frame? (.queryPart 1#8 []) = some ⟨0x19#8, 1#8, []⟩ := by
  decide +kernel

/-- The site with the first four characters of a LIST_CALLS frame held, the rate having changed since or not. -/
def holding (changed : Bool) : State :=
  { site 1#24 [] with link := { (site 1#24 []).link with rx := .receiving ((encodeFrame 5#8 1#8 []).take 4) changed } }

theorem witness_DamagedFramesChangeNothing :
    (site 1#24 []).link.rx = .searching ∧ (0#16 : BitVec 16) ≠ crc (BitVec.ofNat 8 0 :: 5#8 :: 1#8 :: []) ∧
      Config.startChar ∉ BitVec.ofNat 8 0 :: 5#8 :: 1#8 :: ([] ++ encCheck 0#16) ∧
      250 < (251#8 : Byte).toNat ∧ (250#8 : Byte).toNat = 250 ∧
      4 ≤ 5 ∧ 5 < ([] : List Byte).length + 6 ∧
      (holding true).link.rx = .receiving ((encodeFrame 5#8 1#8 []).take 4) true ∧
      Config.startChar ∉ (encodeFrame 5#8 1#8 []).drop 1 ∧
      (holding false).link.rx = .receiving ((encodeFrame 5#8 1#8 []).take 4) false ∧
      Instr.frame? (.listCalls 1#8 []) = some ⟨5#8, 1#8, []⟩ ∧ 4 < ([] : List Byte).length + 6 ∧
      (0x80#8 : Byte) ≠ 0#8 ∧
      damagedBody = [6#8, 9#8, 1#8] ++ encodeFrame 5#8 1#8 [] ++ [0#8, 0#8] ∧
      Config.startChar ∉ ([6#8, 9#8, 1#8] : List Byte) ∧ Config.startChar ∉ ([0#8, 0#8] : List Byte) ∧
      after (.frameBadCheck 9#8 1#8 (encodeFrame 5#8 1#8 []) 0#16) (site 1#24 []) =
        after (.listCalls 1#8 []) (site 1#24 []) := by
  decide +kernel

/-- The site with 8 replies queued. -/
def full : State :=
  { site 1#24 [] with link := { (site 1#24 []).link with
      replies := List.replicate 8 ⟨0x85#8, 1#8, .ok, [0#8], 1⟩ } }

theorem witness_FramesAreDiscarded :
    Instr.frame? (.listCalls 1#8 []) = some ⟨5#8, 1#8, []⟩ ∧ full.link.rx = .searching ∧ 8 ≤ full.link.replies.length ∧
      full.store.rstnLow = false ∧ full.link.state ≠ .starting ∧ (loading .erased).link.state = .starting ∧
      (after .rstnLow full).store.rstnLow = true := by
  decide +kernel

theorem witness_RequestsRefusedBeforeTheirBlock :
    (site 1#24 []).TakesRequests ∧ ¬ (1 ≤ (0x1B#8 : Byte).toNat ∧ (0x1B#8 : Byte).toNat ≤ 0x1A) ∧
      ¬ (1 ≤ (0#8 : Byte).toNat) ∧
      Instr.frame? (.clear 7#8 [0#8]) = some ⟨2#8, 7#8, [0#8]⟩ ∧ ¬ lengthFits 2#8 [0#8] ∧
      Instr.frame? (.setBeacon 7#8 [0#8, 0#8]) = some ⟨0x16#8, 7#8, [0#8, 0#8]⟩ ∧
      lengthFits 0x16#8 [0#8, 0#8] ∧ saving.TakesRequests ∧ saving.store.state = .saving :=
  ⟨site_takes _ _, by decide, by decide, rfl, (fun h => nomatch h), rfl, rfl,
    ⟨by decide +kernel, by decide +kernel, by decide +kernel, by decide +kernel, by decide +kernel⟩,
    by decide +kernel⟩

/-- The site with these notices and these replies waiting, and this frame on its way out. -/
def outbound (ks : List NoticeKey) (rs : List Reply) (f : Option Frame) : State :=
  { site 1#24 [{ call88 with state := .closed, reason := some .cleared }] with
    link := { (site 1#24 []).link with notices := ks, replies := rs, sending := f } }

theorem witness_FramesStartAndEnd :
    (outbound [] (List.replicate 6 ⟨0x85#8, 1#8, .ok, [0#8], 1⟩) none).hrdy = true ∧
      (outbound [] (List.replicate 7 ⟨0x85#8, 1#8, .ok, [0#8], 1⟩) none).hrdy = false ∧
      (loading .erased).hrdy = false ∧
    (outbound [] [] none).link.state ≠ .starting ∧ (outbound [] [] none).link.sending = none ∧
      (outbound [] [] (some ⟨[0#8], some 88, false⟩)).link.sending ≠ none ∧
      (outbound [.call 88] [] none).findCall 88 ≠ none ∧
      (outbound [] [⟨0x85#8, 1#8, .ok, List.replicate 249 0#8, 1⟩] none).link.replies =
        ⟨0x85#8, 1#8, .ok, List.replicate 249 0#8, 1⟩ :: [] := by
  decide +kernel

/-- Every ladder of the site is in range. -/
theorem site_ladders (now : Tick) (calls : List Call) (l : Nat) : ((site now calls).ladder l).inRange = true :=
  row_all (P := fun x : Ladder => x.inRange = true) (site 0#24 []).ladders .default (by decide) (by decide +kernel) l

/-- Two calls that wait in a referral. -/
def referrals : List Call := [{ call88 with number := 87, referred := true }, { call88 with referred := true }]

theorem witness_SilenceTakesTheLinkToLocal :
    (site 70000#24 referrals).link.state = .online ∧ (site 70000#24 referrals).link.silence = some 70000#24 ∧
      ((site 70000#24 []).clock - 70000#24).toNat < 8388608 ∧
      ((site 70000#24 referrals).book.calls.map Call.number).Pairwise (· < ·) ∧
      (∀ l, ((site 70000#24 referrals).ladder l).inRange = true) ∧
      ([87, 88] : List Nat) = ((site 70000#24 referrals).book.calls.filter
        (fun c => decide (c.state = .paging) && c.referred)).map Call.number :=
  ⟨rfl, rfl, by decide, by decide, site_ladders _ _, rfl⟩

theorem witness_NothingExpiresEarly :
    (site 50179#24 [call88]).findCall 88 = some call88 ∧ call88.nextRepeat = some 50180#24 ∧
      8388608 ≤ ((50179#24 : Tick) - 50180#24).toNat ∧ 8388608 ≤ ((50179#24 : Tick) - 50540#24).toNat ∧
      (site 69999#24 []).link.silence = some 70000#24 ∧ 8388608 ≤ ((69999#24 : Tick) - 70000#24).toNat ∧
      ((site 59999#24 []).station 5).due = some 60000#24 ∧ 8388608 ≤ ((59999#24 : Tick) - 60000#24).toNat := by
  decide +kernel

/-! ### Calls and the call book -/

theorem witness_NextNumberIsTheFirstFreeOne :
    (CallBook.mk ((List.range 96).map (fun k => { call88 with number := k + 1 })) [] 0 [] []).calls.length ≤ 96 := by
  decide +kernel

/-- A book of 96 records, the one numbered 1 CLOSED. -/
def fullBook : State :=
  { site 1#24 ({ call88 with number := 1, state := .closed, reason := some .cleared } ::
      (List.range 95).map (fun k => { call88 with number := k + 2 })) with
    book := { (site 1#24 ({ call88 with number := 1, state := .closed, reason := some .cleared } ::
      (List.range 95).map (fun k => { call88 with number := k + 2 }))).book with closedOrder := [1] } }

theorem witness_RaiseCreatesACall :
    (site 1#24 [call88]).TakesRequests ∧ (site 1#24 [call88]).book.calls.length < 96 ∧
      fullBook.TakesRequests ∧ fullBook.book.calls.length = 96 ∧ fullBook.book.closedOrder = 1 :: [] ∧
      ((site 1#24 [call88]).ladder 16).inRange = true ∧ (fullBook.ladder 1).inRange = true ∧
      ((site 1#24 [call88]).crew 12).defined = true ∧ ((site 1#24 [call88]).crew 12).duty = .onDuty ∧
      ((site 1#24 [call88]).crew 48).defined = false :=
  ⟨site_takes _ _, by decide, ⟨rfl, rfl, (fun h => nomatch h), by decide +kernel, rfl⟩, by decide +kernel, rfl,
    site_ladders _ _ 16, site_ladders 1#24 [] 1, by decide +kernel, by decide +kernel, by decide +kernel⟩

theorem witness_CallRequestsAreRefused :
    ({ fullBook with book := { fullBook.book with closedOrder := [] } } : State).TakesRequests ∧
      96 ≤ fullBook.book.calls.length ∧ 3 < (4#8 : Byte).toNat ∧ 48 < (49#8 : Byte).toNat ∧
      (siteTaken 1#24).TakesRequests ∧
      (siteTaken 1#24).findCall ((0#8 : Byte).toNat * 256 + (88#8 : Byte).toNat) = some call88taken ∧
      call88taken.state = .accepted ∧ ((siteTaken 1#24).crew 48).defined = false ∧
      ((siteTaken 1#24).crew 12).defined = true :=
  ⟨⟨rfl, rfl, (fun h => nomatch h), by decide +kernel, rfl⟩, by decide +kernel, by decide, by decide,
    ⟨rfl, rfl, (fun h => nomatch h), by decide +kernel, rfl⟩, by decide +kernel, rfl, by decide +kernel,
    by decide +kernel⟩

theorem witness_NamedCallIsFoundFirst :
    (outbound [] [] none).TakesRequests ∧
      (0#8 : Byte).toNat * 256 + (0#8 : Byte).toNat = 0 ∧
      (outbound [] [] none).findCall ((0#8 : Byte).toNat * 256 + (1#8 : Byte).toNat) = none ∧
      ∃ c, (outbound [] [] none).findCall ((0#8 : Byte).toNat * 256 + (88#8 : Byte).toNat) = some c ∧
        c.state = .closed :=
  ⟨⟨rfl, rfl, (fun h => nomatch h), Nat.zero_lt_succ 7, rfl⟩, by decide, by decide +kernel,
    _, (by decide +kernel : _ = some { call88 with state := .closed, reason := some .cleared }), rfl⟩

/-- A book of 96 open calls with the press at (5, 1) waiting. -/
def pressed : State :=
  { fullBook with book := { fullBook.book with
      calls := (List.range 96).map (fun k => { call88 with number := k + 1 })
      closedOrder := []
      points := [⟨5, 1, 4, .urgent, [], .pending⟩]
      pendingPresses := [(5, 1)] } }

theorem witness_ClearAndCancelCloseTheCall :
    (siteTaken 1#24).TakesRequests ∧ (siteTaken 1#24).findCall 88 = some call88taken ∧
      call88taken.state ≠ .closed ∧ call88taken.accepting = some 22 ∧
      (siteTaken 1#24).book.pendingPresses = [] ∧ (0#8 : Byte).toNat * 256 + (88#8 : Byte).toNat = 88 ∧
      (siteTaken 1#24).book.calls.length ≤ 96 ∧ (∀ l, ((siteTaken 1#24).ladder l).inRange = true) ∧
      pressed.TakesRequests ∧ pressed.findCall 2 = some { call88 with number := 2 } ∧
      pressed.book.pendingPresses = (5, 1) :: [] ∧ pressed.book.calls.length ≤ 96 :=
  ⟨⟨rfl, rfl, (fun h => nomatch h), by decide +kernel, rfl⟩, by decide +kernel, by decide, rfl, rfl, rfl, by decide,
    site_ladders 1#24 [call88taken], ⟨rfl, rfl, (fun h => nomatch h), by decide +kernel, rfl⟩, by decide +kernel, rfl,
    by decide +kernel⟩

theorem witness_CallPointsAreSet :
    (site 1#24 []).TakesRequests ∧ (site 1#24 []).store.state = .idle ∧
      (site 1#24 []).findPoint 5 1 = some ⟨5, 1, 4, .urgent, [], .idle⟩ ∧
      (site 1#24 []).findPoint 12 4 = none ∧ (site 1#24 []).book.points.length < 32 ∧
      ((site 1#24 []).press 5 1).findPoint 5 1 = some ⟨5, 1, 4, .urgent, [], .opened 89⟩ ∧
      32 ≤ (List.replicate 32 (⟨5, 1, 4, .urgent, [], .idle⟩ : CallPoint)).length ∧
      12 < (13#8 : Byte).toNat ∧ 4 < (5#8 : Byte).toNat ∧ 1 < (2#8 : Byte).toNat ∧ 16 < (17#8 : Byte).toNat ∧
      3 < (4#8 : Byte).toNat ∧ (0#8 : Byte).toNat = 0 ∧ (1#8 : Byte) ≠ 0#8 :=
  ⟨site_takes _ _, rfl, by decide +kernel, by decide +kernel, by decide +kernel, by decide +kernel,
    by decide +kernel, by decide⟩

theorem witness_PressesActByTheirEntry :
    (site 1#24 []).findPoint 5 2 = none ∧
      (site 1#24 []).findPoint 5 1 = some ⟨5, 1, 4, .urgent, [], .idle⟩ ∧
      96 ≤ ({ fullBook with book := { fullBook.book with closedOrder := [] } } : State).book.calls.length ∧
      fullBook.findPoint 5 1 = some ⟨5, 1, 4, .urgent, [], .idle⟩ ∧
      fullBook.book.calls.length = 96 ∧ fullBook.book.closedOrder = 1 :: [] ∧
      pressed.findPoint 5 1 = some ⟨5, 1, 4, .urgent, [], .pending⟩ ∧
      (∀ l, ((site 1#24 []).ladder l).inRange = true) ∧
      (((site 1#24 []).press 5 1).findCall 89).map Call.state = some .paging ∧
      (∃ c, ((site 1#24 []).press 5 1).findCall 89 = some c ∧ c.state ≠ .closed) ∧
      (({ fullBook with book := { fullBook.book with closedOrder := [] } } : State).press 5 1).findPoint 5 1 =
        some ⟨5, 1, 4, .urgent, [], .pending⟩ :=
  ⟨by decide +kernel, by decide +kernel, by decide +kernel, by decide +kernel, by decide +kernel, rfl,
    by decide +kernel, site_ladders _ _, by decide +kernel,
    ⟨(((site 1#24 []).press 5 1).findCall 89).getD call88, by decide +kernel, by decide +kernel⟩,
    by decide +kernel⟩

/-! ### Crews, pools and the pager directory -/

/-- The site's registry is sound. -/
theorem site_registrySound (now : Tick) (calls : List Call) : (site now calls).RegistrySound where
  members := by
    intro pager c
    constructor
    · rintro ⟨e, he, rfl⟩
      have hm : e ∈ (site now calls).registry.directory := List.mem_of_find?_eq_some he
      have hp : e.pager = pager := by simpa using List.find?_some he
      subst hp
      have : ∀ e ∈ (site now calls).registry.directory, 1 ≤ e.owner ∧ e.owner ≤ 48 ∧
          e.pager ∈ ((site 0#24 []).crew e.owner).members := by
        show ∀ e ∈ (site 0#24 []).registry.directory, _
        decide +kernel
      exact this e hm
    · rintro ⟨h1, h2, hm⟩
      have : ∀ c ∈ List.range' 1 48, ∀ p ∈ ((site 0#24 []).crew c).members,
          ((site 0#24 []).pagerEntry? p).map PagerEntry.owner = some c := by decide +kernel
      have h := this c (by simp [List.mem_range'_1]; omega) pager hm
      cases he : (site 0#24 []).pagerEntry? pager with
      | none => rw [he] at h; simp at h
      | some e => exact ⟨e, he, by rw [he] at h; simpa using h⟩
  entries := by show ((site 0#24 []).registry.directory.map PagerEntry.pager).Nodup; decide +kernel
  accepted := by
    intro c
    exact row_all (P := fun x : Crew => x.accepted.length ≤ Config.maxAccepted) (site 0#24 []).registry.crews
      .undefined (by decide) (by decide +kernel) c

/-- A value that SET_CREW selects is out of range (R32, check 2). -/
def crewBad (k sel d duty home : Byte) (members : List Nat) : Bool :=
  decide (k.toNat = 0 ∨ 48 < k.toNat ∨ sel.getLsbD 0 = true ∧ 1 < d.toNat ∨ sel.getLsbD 2 = true ∧ 1 < duty.toNat ∨
    sel.getLsbD 4 = true ∧ (home.toNat = 0 ∨ 12 < home.toNat) ∨
    sel.getLsbD 3 = true ∧ (4 < members.length ∨ (∃ m ∈ members, m = 0 ∨ 4095 < m) ∨ ¬ members.Nodup) ∨
    sel.getLsbD 0 = true ∧ d = 0#8 ∧ (sel.getLsbD 1 = true ∨ sel.getLsbD 2 = true ∨ sel.getLsbD 3 = true ∨
      sel.getLsbD 4 = true))

theorem witness_SetCrewChangesTheRegistry :
    (site 1#24 []).TakesRequests ∧ (site 1#24 []).RegistrySound ∧ (site 1#24 []).store.state = .idle ∧
      (crewBad 49#8 0#8 0#8 0#8 0#8 [] ∧ crewBad 12#8 1#8 2#8 0#8 0#8 [] ∧ crewBad 12#8 4#8 0#8 2#8 0#8 [] ∧
        crewBad 12#8 16#8 0#8 0#8 13#8 [] ∧ crewBad 12#8 8#8 0#8 0#8 0#8 [1, 2, 3, 4, 5] ∧
        crewBad 12#8 8#8 0#8 0#8 0#8 [4096] ∧ crewBad 12#8 8#8 0#8 0#8 0#8 [7, 7] ∧
        crewBad 12#8 17#8 0#8 0#8 1#8 []) ∧
      (¬ crewBad 48#8 2#8 1#8 255#8 255#8 [70000] ∧ ((site 1#24 []).crew 48).defined = false) ∧
      (¬ crewBad 22#8 225#8 0#8 255#8 255#8 [0] ∧ ((siteTaken 1#24).crew 22).defined = true ∧
        ((siteTaken 1#24).crew 22).accepted ≠ []) ∧
      (¬ crewBad 12#8 225#8 0#8 255#8 255#8 [0] ∧ ((site 1#24 []).crew 12).defined = true ∧
        ((site 1#24 []).crew 12).accepted = []) ∧
      (¬ crewBad 12#8 10#8 255#8 255#8 255#8 [302, 411] ∧ ¬ crewBad 48#8 9#8 1#8 255#8 255#8 [411] ∧
        (site 1#24 []).pagerEntry? 411 = some ⟨411, 21, none⟩) ∧
      ¬ crewBad 12#8 30#8 0#8 1#8 5#8 [302, 4095] ∧ ¬ crewBad 48#8 31#8 1#8 1#8 12#8 [1, 4095] ∧
      ∀ m ∈ [302, 4095], ∀ e, (site 1#24 []).pagerEntry? m = some e → e.owner = 12 := by
  refine ⟨site_takes _ _, site_registrySound _ _, rfl, by decide, ⟨by decide, by decide +kernel⟩,
    ⟨by decide, by decide +kernel, by decide +kernel⟩, ⟨by decide, by decide +kernel, by decide +kernel⟩,
    ⟨by decide, by decide, by decide +kernel⟩, by decide, by decide, ?_⟩
  have : ∀ m ∈ [302, 4095], ((site 1#24 []).pagerEntry? m).all (fun e => decide (e.owner = 12)) = true := by
    decide +kernel
  intro m hm e he
  have h := this m hm
  rw [he] at h
  simpa using h

theorem witness_SetPoolReplacesTheList :
    (site 1#24 []).TakesRequests ∧ (site 1#24 []).store.state = .idle ∧
      (1 ≤ (16#8 : Byte).toNat ∧ (16#8 : Byte).toNat ≤ 16 ∧ ([48#8, 1#8] : List Byte).length ≤ 8 ∧
        (∀ c ∈ ([48#8, 1#8] : List Byte), 1 ≤ c.toNat ∧ c.toNat ≤ 48) ∧ ([48#8, 1#8] : List Byte).Nodup) ∧
      ¬ (17#8 : Byte).toNat ≤ 16 ∧ ¬ ([1#8, 1#8] : List Byte).Nodup :=
  ⟨site_takes _ _, rfl, by decide, by decide, by decide⟩

theorem witness_RegistryAndLadderQueriesReport :
    (site 1#24 []).TakesRequests ∧ (48#8 : Byte).toNat ≤ 48 ∧ ¬ (49#8 : Byte).toNat ≤ 48 ∧
      (15#8 : Byte).toNat * 256 + (255#8 : Byte).toNat = 4095 ∧
      (site 1#24 []).pagerEntry? ((15#8 : Byte).toNat * 256 + (255#8 : Byte).toNat) = none ∧
      (site 1#24 []).pagerEntry? ((1#8 : Byte).toNat * 256 + (165#8 : Byte).toNat) =
        some ⟨421, 22, some ⟨5, 7, 50880#24⟩⟩ :=
  ⟨site_takes _ _, by decide, by decide, by decide, by decide +kernel, by decide +kernel⟩

theorem witness_PoolChoices :
    ((site 1#24 []).pool 3).pointer ≤ ((site 1#24 []).pool 3).crews.length ∧
      ((site 1#24 []).pool 3).crews[(((site 1#24 []).pool 3).pointer + 0) % 3]? = some 21 ∧
      ((site 1#24 []).crew 21).defined = true ∧ ((site 1#24 []).crew 21).duty = .onDuty ∧
      ((site 1#24 []).crew 21).accepted = [] ∧ ((site 1#24 []).pool 1).crews = [] := by
  decide +kernel

/-! ### Ladders and escalation -/

theorem witness_SetLadderReplacesTheLadder :
    (site 1#24 []).TakesRequests ∧ (site 1#24 []).store.state = .idle ∧
      (∀ x ∈ ladder4.steps.map (fun x => (x, (255#8 : Byte))), x.1.kind.inRange = true ∧ x.1.window < 65536 ∧
        x.1.repeats < 256 ∧ ∀ z, x.1.beacon = some z → 1 ≤ z ∧ z ≤ 8) ∧ ladder4.steps.length ≤ 8 ∧
      (∃ x ∈ ladder4.steps, x.kind = .refer) ∧
      4 < (#v[5#8, 0#8, 0#8, 0#8, 0#8, 0#8] : Vector Byte 6)[0].toNat ∧
      48 < (#v[0#8, 49#8, 0#8, 0#8, 0#8, 0#8] : Vector Byte 6)[1].toNat ∧
      16 < (#v[2#8, 17#8, 0#8, 0#8, 0#8, 0#8] : Vector Byte 6)[1].toNat ∧
      8 < (#v[4#8, 0#8, 0#8, 0#8, 0#8, 9#8] : Vector Byte 6)[5].toNat := by
  refine ⟨site_takes _ _, rfl, ?_, by decide, by decide, by decide⟩
  intro x hx
  simp [ladder4] at hx
  rcases hx with rfl | rfl | rfl <;> simp [StepKind.inRange, within]

/-- The site at 50,540 with call 88 in step 1 of a ladder whose second step is NONE. -/
def plainNext : State :=
  { site 50540#24 [call88] with
    ladders := setRow (site 0#24 []).ladders 4 { ladder4 with steps := [⟨.crew 12, 90, 2, none⟩, ⟨.noTarget, 60, 0, some 8⟩] } }

/-- Call 88 in the last step of ladder 4, with its one restart left. -/
def call88last : Call := { call88 with stepIndex := 3, referred := true }

theorem witness_AdvanceStartsTheNextStep :
    (plainNext.TakesRequests ∧ plainNext.findCall 88 = some call88 ∧ call88.state = .paging ∧
      (plainNext.ladder call88.ladder).steps[call88.stepIndex + 1 - 1]? = some ⟨.noTarget, 60, 0, some 8⟩ ∧
      ¬ plainNext.emptyStep .noTarget ∧
      call88.stepDeadline = some 50540#24 ∧ (plainNext.clock - 50540#24).toNat < 8388608) ∧
    ((site 50540#24 [call88]).ladder call88.ladder).steps[call88.stepIndex + 1 - 1]? =
        some ⟨.poolOne 3, 120, 1, some 5⟩ ∧
      ¬ (site 50540#24 [call88]).emptyStep (.poolOne 3) ∧ ¬ (site 50540#24 [call88]).emptyStep (.poolAll 3) ∧
    ((site 1#24 [call88step2]).ladder call88step2.ladder).steps[call88step2.stepIndex + 1 - 1]? =
        some ⟨.refer, 300, 0, none⟩ ∧
      ¬ (site 1#24 [call88step2]).emptyStep .refer ∧
      ¬ ({ site 1#24 [call88step2] with link := { (site 1#24 []).link with state := .local } } : State).heard.emptyStep
        .refer ∧
    ((site 50540#24 [call88last]).findCall 88 = some call88last ∧
      ((site 50540#24 [call88last]).ladder call88last.ladder).steps.length ≤ call88last.stepIndex ∧
      call88last.restarts < ((site 50540#24 [call88last]).ladder call88last.ladder).restartLimit ∧
      ((site 50540#24 [call88last]).ladder call88last.ladder).steps[1 - 1]? = some ⟨.crew 12, 90, 2, none⟩ ∧
      ¬ (site 50540#24 [call88last]).emptyStep (.crew 12)) := by
  refine ⟨⟨⟨rfl, rfl, (fun h => nomatch h), Nat.zero_lt_succ 7, rfl⟩, ?_, rfl, ?_, id, rfl, ?_⟩, ?_, ?_, ?_, ?_, ?_,
    ?_, ?_, ?_, ?_, ?_, ?_⟩ <;> first | decide +kernel | (simp only [State.emptyStep]; decide +kernel)

theorem witness_AdvancesEndInAStepOrExhaustion :
    (site 50540#24 [call88]).TakesRequests ∧ (site 50540#24 [call88]).findCall 88 = some call88 ∧
      ((site 50540#24 [call88]).ladder call88.ladder).inRange = true ∧ call88.state = .paging ∧
      ((50540#24 : Tick) - 50540#24).toNat < 8388608 ∧
      (siteTaken 54610#24).findCall 88 = some call88taken ∧ call88taken.state = .accepted ∧
      call88taken.arrivalDeadline = some 54610#24 ∧ call88taken.accepting = some 22 :=
  ⟨site_takes _ _, by decide +kernel, by decide +kernel, rfl, by decide, by decide +kernel, rfl, rfl, rfl⟩

theorem witness_RepeatsGoToTheUndeclinedTargets :
    (site 50180#24 [call88]).findCall 88 = some call88 ∧ call88.state = .paging ∧
      call88.nextRepeat = some 50180#24 ∧ ((50180#24 : Tick) - 50180#24).toNat < 8388608 := by
  decide +kernel

theorem witness_DirectStartsADirectedStep :
    (site 1#24 [call88]).TakesRequests ∧ (site 1#24 [call88]).findCall 88 = some call88 ∧
      call88.state = .paging ∧ ((site 1#24 [call88]).crew (22#8 : Byte).toNat).defined = true ∧
      (site 1#24 [{ call88 with state := .exhausted }]).findCall 88 = some { call88 with state := .exhausted } :=
  ⟨site_takes _ _, by decide +kernel, rfl, by decide +kernel, by decide +kernel⟩

/-! ### Finding the pager -/

theorem witness_StationSetsWidenByAttempt :
    (site 53280#24 []).pagerEntry? 421 = some ⟨421, 22, some ⟨5, 7, 50880#24⟩⟩ ∧
      ((53280#24 : Tick) - 50880#24).toNat ≤ 300 * 8 ∧ ¬ ((53281#24 : Tick) - 50880#24).toNat ≤ 300 * 8 ∧
      (site 53280#24 []).store.params.freshness = 300 ∧ (site 53280#24 []).usable 5 = true ∧
      (site 53280#24 []).findCall 88 = none := by
  decide +kernel

theorem witness_LocationUpdateRule :
    (site 1#24 []).pagerEntry? 421 = some ⟨421, 22, some ⟨5, 7, 50880#24⟩⟩ ∧
      (site 1#24 []).pagerEntry? 411 = some ⟨411, 21, none⟩ ∧
      17 ≤ ((50897#24 : Tick) - 50880#24).toNat ∧ ((50896#24 : Tick) - 50880#24).toNat = 16 ∧
      16777200 = ((50864#24 : Tick) - 50880#24).toNat := by
  decide +kernel

/-! ### Acknowledgements -/

theorem witness_DuplicateAndStrayRecordsActOnNothing :
    (∃ e ∈ ({ site 1#24 [] with acks := [⟨421, 88, .accept, 0#24, 5⟩] } : State).acks,
      e.pager = 421 ∧ e.call = 88 ∧ e.kind = .accept) ∧ (site 1#24 []).acks = [] ∧
      (site 1#24 []).pagerEntry? 4095 = none ∧ (site 1#24 []).findCall 88 = none ∧
      (site 50006#24 [call88]).findCall 88 = some call88 ∧
      1 ≤ (call88.raiseTick - ((50006#24 : Tick) - BitVec.ofNat 24 7)).toNat ∧
      (site 50006#24 [call88]).pagerEntry? 421 = some ⟨421, 22, some ⟨5, 7, 50880#24⟩⟩ ∧ call88.state ≠ .closed ∧
      ¬ 1 ≤ (call88.raiseTick - ((50006#24 : Tick) - BitVec.ofNat 24 6)).toNat ∧
      (site 1#24 []).store.params.dedupe * 8 < 81 ∧ 80 ≤ (site 1#24 []).store.params.dedupe * 8 ∧
      64 ≤ (List.replicate 64 (⟨421, 88, .accept, 0#24, 5⟩ : AckEntry)).length ∧
      ((80#24 : Tick) - 0#24).toNat = 80 := by
  refine ⟨⟨_, List.mem_singleton_self _, rfl, rfl, rfl⟩, rfl, ?_, ?_, ?_, ?_, ?_, ?_, ?_, ?_, ?_, ?_, ?_⟩ <;>
    decide +kernel

theorem witness_AcceptanceTakesTheCall :
    (site 1#24 [call88step2]).findCall call88step2.number = some call88step2 ∧ call88step2.state = .paging ∧
      22 ∈ call88step2.paged ∧ ((site 1#24 [call88step2]).crew 22).accepted.length < 3 ∧
      (site 1#24 [{ call88step2 with state := .exhausted }]).findCall 88 =
        some { call88step2 with state := .exhausted } ∧
      20 ∉ call88step2.paged ∧
      3 ≤ (((site 1#24 [call88step2]).putCrew 22 { dutyCrew [421] with accepted := [1, 2, 3] }).crew
        22).accepted.length ∧
      call88taken.state = .accepted ∧ call88taken.accepting = some 22 ∧ 12 ∈ call88taken.paged ∧
      12 ∉ call88taken.declined ∧ 21 ∈ call88taken.declined ∧ 20 ∉ call88taken.paged := by
  decide +kernel

theorem witness_ArrivalAndDoneOfTheAcceptor :
    (siteTaken 1#24).findCall call88taken.number = some call88taken ∧
      call88taken.acceptTick = some 51004#24 ∧ call88taken.accepting = some 22 ∧
      (siteTaken 1#24).book.pendingPresses = [] ∧ (siteTaken 1#24).book.calls.length ≤ 96 ∧
      (∀ l, ((siteTaken 1#24).ladder l).inRange = true) ∧
      (site 1#24 [call88step2]).findCall call88step2.number = some call88step2 ∧ call88step2.state = .paging ∧
      22 ∈ call88step2.paged ∧ ((site 1#24 [call88step2]).crew 22).accepted.length < 3 ∧
      call88step2.acceptTick = none :=
  ⟨by decide +kernel, rfl, rfl, rfl, by decide, site_ladders 1#24 [call88taken], by decide +kernel, rfl, by decide,
    by decide +kernel, rfl⟩

theorem witness_DeclinesAreRemembered :
    (site 1#24 [call88step2]).findCall call88step2.number = some call88step2 ∧ call88step2.state = .paging ∧
      21 ∈ call88step2.declined ∧ 22 ∈ call88step2.targets ∧ 22 ∉ call88step2.declined ∧
      ((site 1#24 [call88step2]).chooseOne 3 [21, 22] [21, 22]).1 = some 20 ∧
      (site 1#24 [{ call88step2 with stepPool := none, declined := [] }]).findCall 88 =
        some { call88step2 with stepPool := none, declined := [] } ∧
      (∀ k ∈ call88step2.targets, k = 22 ∨ k ∈ call88step2.declined) ∧
      ((site 1#24 [call88step2]).ladder call88step2.ladder).inRange = true ∧
      ((site 1#24 [call88step2]).chooseOne 1 [21, 22] [21, 22]).1 = none ∧ call88step2.stepPool ≠ none ∧
      12 ∉ call88step2.targets ∧ call88taken.state ≠ .paging ∧ 22 ∈ call88taken.targets := by
  decide +kernel

theorem witness_QueriesReport :
    (site 1#24 [call88]).TakesRequests ∧
      (site 1#24 [call88]).findCall ((0#8 : Byte).toNat * 256 + (88#8 : Byte).toNat) = some call88 ∧
      (site 1#24 [call88]).findCall ((0#8 : Byte).toNat * 256 + (89#8 : Byte).toNat) = none ∧
      ¬ (13#8 : Byte).toNat ≤ 12 ∧ ((site 1#24 []).station (5#8 : Byte).toNat).defined = true ∧
      ((site 1#24 []).station (12#8 : Byte).toNat).defined = false :=
  ⟨site_takes _ _, by decide +kernel, by decide +kernel, by decide, by decide +kernel, by decide +kernel⟩

/-! ### Page queues and the air -/

/-- Ordered waiting pages of call 88 for pagers 1 to `n`. -/
def pages (n : Nat) : List Item := (List.range n).map (fun k => ⟨k + 1, 88, .page, .urgent, [], 0⟩)

theorem witness_PlacingKeepsTheOrder :
    (∃ w ∈ (⟨[], pages 2, none, .none, false⟩ : StationQueue).waiting,
      w.pager = 2 ∧ w.call = 88 ∧ w.kind = .page) ∧
      (⟨[], pages 23, none, .none, false⟩ : StationQueue).count < 24 ∧
      24 ≤ (⟨[], pages 24, none, .none, false⟩ : StationQueue).count ∧
      (∀ w ∈ (⟨[], pages 24, none, .none, false⟩ : StationQueue).waiting,
        ¬ (w.pager = 25 ∧ w.call = 88 ∧ w.kind = .page)) ∧
      pages 24 = pages 23 ++ [⟨24, 88, .page, .urgent, [], 0⟩] ∧
      (site 1#24 [call88]).chooseStations ⟨301, 88, .page, .urgent, [], 0⟩ ≠ [] ∧
      ({ site 1#24 [call88] with line := Line.reset } : State).chooseStations ⟨301, 88, .page, .urgent, [], 0⟩ = [] ∧
      ({ site 1#24 [call88] with line := Line.reset } : State).chooseStations
        ⟨301, 88, .standDown, .urgent, [], 0⟩ = [] ∧
      ((⟨[], pages 24, none, .none, false⟩ : StationQueue).accept ⟨25, 88, .page, .urgent, [], 0⟩).2 =
        some ⟨25, 88, .page, .urgent, [], 0⟩ ∧
      lostPageOf [⟨25, 88, .page, .urgent, [], 0⟩] call88 = true := by
  decide +kernel

theorem witness_ArbiterGrantsByTheStayLimit :
    let s := fun (w : Nat) => (((site 1#24 []).putQueue 5 ⟨[], pages 1, none, .none, false⟩).putQueue w
      ⟨[], pages 1, none, .none, false⟩).putGroup 2 ⟨none, 5, 1, none⟩
    ((s 6).group 2).last ≤ 12 ∧ ((s 6).group 2).holder = none ∧
      ((s 6).group 2).consecutive < (s 6).store.params.stayLimit ∧
      (((s 6).station 6).defined = true ∧ ((s 6).station 6).group = 2 ∧
        ((s 6).station 6).service = .inService ∧ ((s 6).queue 6).waiting ≠ [] ∧
        ((s 6).queue 6).waitIdle = false) ∧
      (5 + 1 - 1) % 12 + 1 = 6 ∧ ((site 1#24 []).queue 5).waiting = [] := by
  decide +kernel

theorem witness_BurstsAreFormedAndSent :
    let s := fun (items : List Item) => (({ site 1#24 [] with line := { (site 1#24 []).line with
      burstWaits := [5] } } : State).putQueue 5 ⟨[], items, none, .granted, false⟩).putGroup 2 ⟨some 5, 5, 1, none⟩
    (s []).line.exchange = none ∧ (s []).line.burstWaits = 5 :: [] ∧ ((s (pages 7)).queue 5).waiting ≠ [] ∧
      ((s []).queue 5).waiting = [] ∧ ((s []).group ((s []).station 5).group).holder = some 5 := by
  decide +kernel

theorem witness_AirtimeLimitEndsTheGrant :
    let s := ((site 80000#24 []).putQueue 5 ⟨[], [], none, .onAir, false⟩).putGroup 2 ⟨some 5, 5, 1, some 80000#24⟩
    (s.station 5).group = 2 ∧ (s.queue 5).phase = .onAir ∧ (s.group 2).holder = some 5 ∧
      (s.group 2).deadline = some 80000#24 ∧ (s.clock - 80000#24).toNat < 8388608 ∧
      (s.station 5).service = .inService ∧ (s.station 5).misses + 1 < s.store.params.missLimit ∧
      s.store.params.missLimit ≤ 2 + 1 ∧
      ((s.putQueue 5 ⟨[], pages 24, none, .onAir, false⟩).heldAt 5).length = 24 ∧
      ({ s with line := { s.line with exchange := some ⟨.poll, 5, 0#8, false, [], false, false⟩ } } :
        State).line.exchange.map Exchange.station = some 5 := by
  decide +kernel

/-! ### The station line -/

theorem witness_PollsBeginInTheirOrder :
    ((site 60000#24 []).station 5).due = some 60000#24 ∧ ((60000#24 : Tick) - 60000#24).toNat < 8388608 ∧
      (site 60000#24 []).line.exchange = none ∧ (site 60000#24 []).line.burstWaits = [] ∧
      (site 60000#24 []).line.followUps = [] ∧
      (((site 60000#24 []).addFollowUp 6).line.followUps = 6 :: [] ∧
        ((site 60000#24 []).addFollowUp 6).line.exchange = none ∧
        ((site 60000#24 []).addFollowUp 6).line.burstWaits = []) ∧
      ((after (.pollDue 5) (site 60000#24 [])).station 5).pollWaits = true ∧
      (∀ k ∈ List.range' 1 12, k = 5 ∨ ((after (.pollDue 5) (site 60000#24 [])).station k).pollWaits = false) := by
  decide +kernel

theorem witness_RepliesAreReadAsSent :
    let rs : List (FloorRecord × List Byte) :=
      [(.ack 255#8 ⟨4095, 65535, .done, 15, 255⟩, []), (.press 0#8 4, [9#8, 1#8, 2#8, 3#8, 4#8, 5#8])]
    rs.length ≤ 8 ∧ (⟨.poll, 12, 0#8, false, [], false, false⟩ : Exchange).kind = .poll ∧
      (∀ r ∈ rs, match r.1 with
        | .ack _ a => 1 ≤ a.pager ∧ a.pager ≤ 4095 ∧ a.call < 65536 ∧ a.quality ≤ 15 ∧ a.age < 256
        | .press _ input => 1 ≤ input ∧ input ≤ 4 ∧ r.2.length = 6) ∧
      ((0x9C#9 : Char9).toNat < 256 ∧ (0x100#9 : Char9).toNat = 256 ∧ (0x19B#9 : Char9).toNat % 16 ≠ 12 ∧
        (0x1AC#9 : Char9).toNat / 16 % 16 ≠ 9 ∧ (0x19C#9 : Char9).toNat / 16 % 16 = 9 ∧
        (0x1AC#9 : Char9).toNat / 16 % 16 = 10) ∧
      (0#16 : BitVec 16) ≠ crc (dataBits 0x19C#9 :: [0#8, 0#8, 0#8]) ∧
      ((1#8 : Byte) ≠ 0#8 ∧ 1 < (2#8 : Byte).toNat ∧ ([] : List Byte).length % 9 = 0) ∧
      ((0#8 : Byte).toNat * 256 + (0#8 : Byte).toNat = 0 ∧ 4095 < (16#8 : Byte).toNat * 256 + (0#8 : Byte).toNat ∧
        3 < (4#8 : Byte).toNat ∧ 15 < (16#8 : Byte).toNat ∧ 4 < (5#8 : Byte).toNat) ∧
      (([0#9, 0#9, 9#9] : List Char9)[2]? = some 9#9 ∧ 8 < (9#9 : Char9).toNat % 256) ∧
      (([0#9, 0#9, 8#9] : List Char9)[2]? = some 8#9 ∧ (8#9 : Char9).toNat % 256 ≤ 8) ∧
      ([0#9, 0#9] : List Char9)[2]? = none := by
  refine ⟨by decide, rfl, ?_, by decide, by decide +kernel, by decide, by decide, by decide, by decide, by decide⟩
  intro r hr
  simp at hr
  rcases hr with rfl | rfl <;> simp

/-- The site with an exchange with station 5 on the line. -/
def onLine (kind : ExchangeKind) (id : Byte) : State :=
  { site 1#24 [] with line := { (site 1#24 []).line with
      exchange := some ⟨kind, 5, id, false, [], false, false⟩ } }

theorem witness_PollReplyIsAnAnswer :
    let x : Exchange := ⟨.poll, 5, 0#8, false, [], false, false⟩
    (onLine .poll 0#8).line.exchange = some x ∧
      replyShape (commandChars 9 5 [3#8, 9#8, 0#8]) = .complete (commandChars 9 5 [3#8, 9#8, 0#8]) ∧
      readReply x (commandChars 9 5 [3#8, 9#8, 0#8]) = some (.poll true true 9#8 []) ∧
      readReply { x with resync := true }
          (commandChars 9 5 [0#8, 9#8, 1#8, 7#8, 1#8, 1#8, 0#8, 0#8, 0#8, 0#8, 0#8, 0#8]) =
        some (.poll false false 9#8 [.press 7#8 1]) ∧
      ((onLine .poll 0#8).station 5).service = .inService ∧ ((onLine .poll 0#8).queue 5).phase = .none ∧
      ((onLine .poll 0#8).voidExchange 5).line.exchange = some { x with void := true } ∧
      readReply { x with void := true } (commandChars 9 5 [3#8, 9#8, 0#8]) = some (.poll true true 9#8 []) ∧
      readReply x (commandChars 9 5 [2#8, 9#8, 0#8]) = some (.poll false true 9#8 []) ∧
      ((onLine .poll 0#8).station 5).group = 2 ∧
      ((((onLine .poll 0#8).putQueue 5 ⟨[], [], none, .onAir, false⟩).putGroup 2 ⟨some 5, 5, 1, some 9#24⟩).queue
        5).phase = .onAir ∧
      ((((onLine .poll 0#8).putQueue 5 ⟨[], [], none, .onAir, false⟩).putGroup 2 ⟨some 5, 5, 1, some 9#24⟩).group
        2).holder = some 5 ∧
      (((onLine .poll 0#8).putStation 5 ⟨true, 2, .inService, .silent, 3, none, false, 0#8, true, []⟩).station
        5).service = .silent := by
  decide +kernel

theorem witness_RecordsAreTakenOnce :
    ((site 1#24 []).station 5).mark = 0#8 ∧ ((127#8 : Byte).toNat + 256 - 0) % 256 = 127 ∧
      ((128#8 : Byte).toNat + 256 - 0) % 256 = 128 ∧ ((0#8 : Byte).toNat + 256 - 0) % 256 = 0 ∧
      ((1#8 : Byte).toNat + 256 - 0) % 256 = 1 := by
  decide +kernel

theorem witness_BurstReplySettlesTheBurst :
    let s := ((onLine .burst 37#8).putQueue 5 ⟨[], pages 1, some ⟨37#8, pages 2⟩, .inFlight, false⟩).putGroup 2
      ⟨some 5, 5, 1, none⟩
    let x : Exchange := ⟨.burst, 5, 37#8, false, [], false, false⟩
    s.line.exchange = some x ∧ readReply x (commandChars 10 5 [37#8, 0#8]) = some (.burst true) ∧
      readReply x (commandChars 10 5 [37#8, 1#8]) = some (.burst false) ∧
      replyShape (commandChars 10 5 [37#8, 1#8]) = .complete (commandChars 10 5 [37#8, 1#8]) ∧
      (s.station 5).service = .inService ∧ (s.station 5).group = 2 ∧ (s.group 2).holder = some 5 ∧
      (s.queue 5).flight = some ⟨37#8, pages 2⟩ ∧
      readReply { x with detached := true } (commandChars 10 5 [37#8, 1#8]) = some (.burst false) ∧
      (s.voidExchange 5).line.exchange = some { x with void := true } ∧
      readReply { x with void := true } (commandChars 10 5 [37#8, 1#8]) = some (.burst false) ∧
      (s.station 5).misses = 0 ∧
      ((s.putStation 5 ⟨true, 2, .inService, .suspect, 1, none, false, 0#8, true, []⟩).station 5).service =
        .suspect := by
  decide +kernel

theorem witness_NoReplyCountsAMiss :
    let x : Exchange := ⟨.poll, 5, 0#8, false, [], false, false⟩
    let bad := commandChars 9 5 ([0#8, 9#8, 1#8] ++ [1#8, 2#8, 0#8, 0#8, 0#8, 0#8, 0#8, 0#8, 0#8])
    let burst := ((onLine .burst 37#8).putQueue 5 ⟨[], pages 1, some ⟨37#8, pages 2⟩, .inFlight, false⟩).putGroup 2
      ⟨some 5, 5, 1, none⟩
    burst.line.exchange = some ⟨.burst, 5, 37#8, false, [], false, false⟩ ∧ (burst.station 5).group = 2 ∧
      (burst.group 2).holder = some 5 ∧ (burst.queue 5).flight = some ⟨37#8, pages 2⟩ ∧
      readReply ⟨.burst, 5, 37#8, false, [], false, false⟩ (commandChars 10 5 [36#8, 0#8]) = none ∧
      (burst.voidExchange 5).line.exchange = some ⟨.burst, 5, 37#8, false, [], true, false⟩ ∧
      (onLine .poll 0#8).line.exchange = some x ∧ replyShape [dataChar 0#8] = .malformed ∧
      replyShape bad = .complete bad ∧ readReply x bad = none ∧
      ((onLine .poll 0#8).station 5).service = .inService ∧
      ((onLine .poll 0#8).station 5).misses + 1 < (onLine .poll 0#8).store.params.missLimit ∧
      (onLine .poll 0#8).store.params.missLimit ≤ 2 + 1 ∧
      (((onLine .poll 0#8).putStation 5 ⟨true, 2, .inService, .silent, 3, none, false, 0#8, true, []⟩).station
        5).service = .silent ∧
      (burst.heldAt 5).length = 3 ∧ burst.heldOnReturn 5 = pages 1 := by
  decide +kernel

theorem witness_StationsAreSet :
    (site 1#24 []).TakesRequests ∧ (site 1#24 []).store.state = .idle ∧
      [1, 2, 3, 4].length ≤ 4 ∧ [1, 2, 3, 4].Nodup ∧ 12 ∉ [1, 2, 3, 4] ∧
      ((site 1#24 []).station 12).defined = false ∧ ((site 1#24 []).station 5).defined = true ∧
      5 ∉ [1, 2, 3, 4] ∧ ((site 1#24 []).station 5).group = 2 ∧
      (((site 1#24 []).putQueue 5 ⟨[], pages 1, some ⟨37#8, pages 2⟩, .inFlight, false⟩).queue 5).phase = .inFlight ∧
      12 < (13#8 : Byte).toNat ∧ 1 < (2#8 : Byte).toNat ∧ 4 < (5#8 : Byte).toNat ∧
      ((1#8 : Byte) ≠ 0#8 ∧ (1#8 : Byte) ≠ 3#8) ∧ 4 < ([1#8, 2#8, 3#8, 4#8, 6#8] : List Byte).length ∧
      ¬ ([1#8, 1#8] : List Byte).Nodup ∧ (5#8 : Byte) ∈ ([5#8] : List Byte) ∧
      (((site 1#24 []).station 5).setting = .inService ∧ ((site 1#24 []).station 5).neighbours = [6]) ∧
      ((((site 1#24 []).putQueue 5 ⟨[], pages 1, none, .onAir, false⟩).putGroup 2 ⟨some 5, 5, 1, none⟩).group 2).holder =
        some 5 ∧
      (((site 1#24 []).putStation 5 ⟨true, 2, .outOfService, .outOfService, 1, none, false, 0#8, false, []⟩).station
        5).service = .outOfService ∧
      ((((site 1#24 []).putQueue 5 ⟨[], pages 1, none, .granted, false⟩).putQueue 6
        ⟨[], pages 1, none, .none, false⟩).putGroup 2 ⟨some 5, 5, 1, none⟩).station 6 =
          ⟨true, 2, .inService, .inService, 0, some 60000#24, false, 0#8, false, []⟩ ∧
      ((after (.setStationDefine 1#8 [5#8, 0#8, 3#8, 0#8, 0#8])
        ((((site 1#24 []).putQueue 5 ⟨[], pages 1, none, .granted, false⟩).putQueue 6
          ⟨[], pages 1, none, .none, false⟩).putGroup 2 ⟨some 5, 5, 1, none⟩)).group 2).holder = some 6 ∧
      ((after (.setStationDefine 1#8 [5#8, 0#8, 3#8, 0#8, 0#8])
        ((((site 1#24 []).putQueue 5 ⟨[], pages 1, none, .granted, false⟩).putQueue 6
          ⟨[], pages 1, none, .none, false⟩).putGroup 2 ⟨some 5, 5, 1, none⟩)).group 3).holder = some 5 :=
  ⟨site_takes _ _, rfl, by decide, by decide, by decide, by decide +kernel, by decide +kernel, by decide,
    by decide +kernel, by decide +kernel, by decide, by decide, by decide, by decide, by decide, by decide, by decide,
    by decide +kernel, by decide +kernel, by decide +kernel, by decide +kernel, by decide +kernel, by decide +kernel⟩

/-! ### Beacons and parameters -/

theorem witness_BeaconsFlashByTheirPosition :
    let s := fun (now : Tick) =>
      (site now []).putBeacon 8 ⟨.low, [], some .urgent, some ⟨.urgent, 8, 4, 50540#24⟩, .high⟩
    ((s 50548#24).beacon 8).driving = some ⟨.urgent, 8, 4, 50540#24⟩ ∧
      8 ≤ ((50548#24 : Tick) - 50540#24).toNat ∧ 4 ≤ ((50544#24 : Tick) - 50540#24).toNat ∧
      ((50547#24 : Tick) - 50540#24).toNat < 8 ∧ ((50543#24 : Tick) - 50540#24).toNat < 4 := by
  decide +kernel

/-- Call 88 as it holds beacon 8. -/
def holder88 : Call := { call88 with heldBeacon := some 8 }

/-- The site with beacon 8 driven for call 88. -/
def lit : State :=
  (site 50543#24 [holder88]).putBeacon 8 ⟨.low, [88], none, some ⟨.urgent, 8, 4, 50540#24⟩, .high⟩

theorem witness_BeaconsAreHeldAndSet :
    (site 1#24 []).TakesRequests ∧ lit.TakesRequests ∧ (lit.beacon 8).holders = [88] ∧
      lit.findCall 88 = some holder88 ∧ holder88.heldBeacon = some 8 ∧
      { holder88 with heldBeacon := none }.heldBeacon ≠ some 8 ∧
      { holder88 with heldBeacon := some 1 }.number = 88 ∧ { holder88 with heldBeacon := some 1 }.heldBeacon = some 1 ∧
      (after (.beaconHold 1#8 [8#8, 0#8, 3#8]) lit).beacon 8 =
        ⟨.low, [88], some .emergency, some ⟨.emergency, 2, 1, 50543#24⟩, .high⟩ ∧
      (after (.beaconHold 1#8 [8#8, 0#8, 0#8]) lit).beacon 8 =
        ⟨.low, [88], some .routine, some ⟨.urgent, 8, 4, 50540#24⟩, .high⟩ ∧
      ¬ (9#8 : Byte).toNat ≤ 8 ∧ (site 1#24 []).store.state = .idle ∧
      ((site 1#24 []).beacon (1#8 : Byte).toNat).idle = .low :=
  ⟨site_takes _ _, ⟨rfl, rfl, (fun h => nomatch h), Nat.zero_lt_succ 7, rfl⟩, by decide +kernel, by decide +kernel,
    rfl, by decide, rfl, rfl, by decide +kernel, by decide +kernel, by decide, rfl, by decide +kernel⟩

theorem witness_ParametersAreClamped :
    (site 1#24 []).TakesRequests ∧ (site 1#24 []).store.state = .idle ∧
      (Params.default.factor.routine < 256 ∧ Params.default.factor.urgent < 256 ∧
        Params.default.factor.hazard < 256 ∧ Params.default.factor.emergency < 256) ∧
      (Params.default.freshness < 65536 ∧ Params.default.dedupe < 256 ∧ Params.default.silence < 65536 ∧
        Params.default.pollPeriod < 256 ∧ Params.default.airtimeLimit < 256 ∧ Params.default.stayLimit < 256 ∧
        Params.default.missLimit < 256 ∧ Params.default.rate < 16777216) ∧
      (∀ c, (Params.default.pattern.get c).period < 256 ∧ (Params.default.pattern.get c).onTime < 256) :=
  ⟨site_takes _ _, rfl, by decide, by decide, fun c => by cases c <;> decide⟩

/-! ### What every step keeps -/

/-- The site with call 88 paging, and a RAISE waiting. -/
def busy : State := { site 50180#24 [call88] with pending := [.raise 1#8 [1#8, 4#8, 5#8, 0#8, 0#8]] }

theorem busy_steps : ∃ t, step busy = .next t :=
  ⟨_, rfl⟩

/-- The call points of the site with call 88 paging are sound. -/
theorem busy_pointsSound : busy.PointsSound where
  keys := by decide +kernel
  opened := by
    intro p hp n hn
    have : p = ⟨5, 1, 4, .urgent, [], .idle⟩ := by simpa [busy, site] using hp
    subst this
    exact nomatch hn
  raised := by
    intro n c st i hf _ hc
    have hm : c ∈ busy.book.calls := List.mem_of_find?_eq_some hf
    have : c = call88 := by simpa [busy, site] using hm
    subst this
    exact nomatch hc
  pending := by
    intro st i
    constructor
    · intro h; exact absurd h (List.not_mem_nil)
    · rintro ⟨p, hp, -, -, hs⟩
      have : p = ⟨5, 1, 4, .urgent, [], .idle⟩ := by simpa [busy, site] using hp
      subst this
      exact nomatch hs
  once := List.nodup_nil
  waits := fun h => absurd rfl h

theorem witness_StepsKeepTheBookSound : busy.BookSound ∧ busy.PointsSound ∧ ∃ t, step busy = .next t := by
  refine ⟨?_, busy_pointsSound, busy_steps⟩
  exact {
    capacity := by decide
    ascending := by decide +kernel
    range := by decide +kernel
    closedOnce := by decide +kernel
    closed := by
      intro n
      constructor
      · intro h; exact absurd h (List.not_mem_nil)
      · rintro ⟨c, hc, -, hs⟩
        have : c = call88 := by simpa [busy, site] using hc
        subst this
        exact absurd hs (by decide)
    frees := fun f n h => nomatch h
    calls := by
      intro c hc
      have : c = call88 := by simpa [busy, site] using hc
      subst this
      constructor <;> simp [call88, newCall, Config.maxTargets]
    pools := fun k =>
      have h := row_all (P := fun x : Pool => x.crews.length ≤ 8 ∧ x.crews.Nodup ∧ x.pointer ≤ x.crews.length ∧
          (x.crews ≠ [] → 1 ≤ x.pointer))
        (site 0#24 []).registry.pools .empty (by decide) (by decide +kernel) k
      ⟨h.1, h.2.1, h.2.2.1, h.2.2.2⟩
    starting := fun h => nomatch h }

theorem witness_StepsKeepTheQueuesAndTheLinkSound :
    busy.QueuesSound ∧ busy.LinkSound ∧ ∃ t, step busy = .next t := by
  refine ⟨?_, ⟨List.nodup_nil, (fun _ h => nomatch h), by decide, (fun h => nomatch h)⟩, busy_steps⟩
  intro st
  have h : busy.queue st = .empty := row_replicate st StationQueue.empty
  rw [h]
  exact ⟨by decide, List.Pairwise.nil, List.Pairwise.nil, List.Pairwise.nil⟩

theorem witness_StepsKeepTheTablesInRange :
    busy.RegistrySound ∧ busy.TablesSound ∧ ∃ t, step busy = .next t :=
  ⟨⟨(site_registrySound 50180#24 [call88]).members, (site_registrySound 50180#24 [call88]).entries,
    (site_registrySound 50180#24 [call88]).accepted⟩, by unfold State.TablesSound; decide +kernel, busy_steps⟩

theorem witness_StepsKeepTheAcceptedLists :
    (busy.AcceptedSound ∧ ∃ t, step busy = .next t) ∧
      ({ busy with acks := [⟨421, 88, .accept, 50000#24, 5⟩, ⟨421, 88, .done, 50000#24, 5⟩] } : State).AcksSound := by
  refine ⟨?_, by decide, by decide⟩
  have h : ∀ c, (busy.crew c).accepted = [] := fun c =>
    row_all (P := fun x : Crew => x.accepted = []) (site 0#24 []).registry.crews .undefined (by decide)
      (by decide +kernel) c
  refine ⟨⟨fun c => by rw [h c]; exact List.nodup_nil, fun c _ _ n => ?_⟩, busy_steps⟩
  rw [h c]
  constructor
  · intro hm; exact absurd hm (List.not_mem_nil)
  · rintro ⟨x, hx, ha⟩
    have hm : x ∈ busy.book.calls := List.mem_of_find?_eq_some hx
    have : x = call88 := by simpa [busy, site] using hm
    subst this
    exact nomatch ha

theorem witness_StepsKeepTheBeaconsSound : busy.BeaconsSound ∧ ∃ t, step busy = .next t := by
  have hb : ∀ z, (busy.beacon z).driving = none ∧ (busy.beacon z).hold = none ∧ (busy.beacon z).holders = [] :=
    fun z => row_all (P := fun x : Beacon => x.driving = none ∧ x.hold = none ∧ x.holders = [])
      (site 0#24 []).beacons .released (by decide) (by decide +kernel) z
  refine ⟨⟨fun z _ _ n => ?_, fun z => by rw [(hb z).2.2]; exact List.nodup_nil, fun z => ?_⟩, busy_steps⟩
  · rw [(hb z).2.2]
    constructor
    · intro hm; exact absurd hm (List.not_mem_nil)
    · rintro ⟨x, hx, ha⟩
      have hm : x ∈ busy.book.calls := List.mem_of_find?_eq_some hx
      have : x = call88 := by simpa [busy, site] using hm
      subst this
      exact nomatch ha
  · simp [State.wantedClass, (hb z).1, (hb z).2.1, (hb z).2.2, highestClass]

theorem witness_StepsKeepTheAirSound : busy.AirSound ∧ ∃ t, step busy = .next t := by
  refine ⟨⟨fun g st h => ?_, fun st _ => ?_, fun h => nomatch h⟩, busy_steps⟩
  · have hg : busy.group g = .free := row_replicate g Group.free
    rw [hg] at h
    exact absurd h (by decide +revert)
  · have hq : busy.queue st = .empty := row_replicate st StationQueue.empty
    rw [hq]
    exact ⟨rfl, rfl⟩

end Sys2Proof.Tests
end

section
/-!
SUPPORT. Each change of a call record that the escalation engine makes, under a name, and each operation of the engine
as the composition of named steps (chapter 3).
-/

namespace Sys2Proof.Machine

/-- The targets of a step that is not empty, and the paged set with them (R55). -/
def Call.targeted (ts : List Nat) (c : Call) : Call :=
  { c with targets := ts, paged := ts.foldl addToSet c.paged }

/-- The held beacon of a step that has one (R55). -/
def Call.holding (z : Nat) (c : Call) : Call := { c with heldBeacon := some z }

/-- What the kind of a step gives the record (R52). -/
def Call.resolved (r : Resolved) (c : Call) : Call :=
  { c with stepPool := if r.empty then none else r.pool, referred := r.referred }

/-- An advance clears the deadlines (R63). -/
def Call.advancing (c : Call) : Call := { c with stepDeadline := none, nextRepeat := none, state := .paging }

/-- A restart of the ladder (R64). -/
def Call.restarted (c : Call) : Call := { c with restarts := c.restarts + 1 }

/-- A directed step's bookkeeping (R70). -/
def Call.redirected (now : Tick) (f : Cls → Nat) (i b r : Nat) (c : Call) : Call :=
  { stepBookkeeping now (f c.cls) i b r c with directed := true, state := .paging }

/-- A crew declines (R61). -/
def Call.declinedBy (crew : Nat) (c : Call) : Call := { c with declined := c.declined ++ [crew] }

/-- A replacement crew joins the step (R61). -/
def Call.joinedBy (x : Nat) (c : Call) : Call :=
  { c with targets := addToSet c.targets x, paged := addToSet c.paged x }

/-- A repeat is counted, and the next one armed where one is left (R59). -/
def Call.repeated (k : Nat) (c : Call) : Call :=
  { c with
    attempts := k + 1
    nextRepeat := if k + 1 ≤ c.repeats then some (tickAfter c.stepStart ((k + 1) * c.interval)) else none }

/-- The pages of a step start go out, when the call is in the book (R55). -/
def State.pageTargets (s : State) (n : Nat) (ts : List Nat) : State :=
  match s.findCall n with
  | none => s
  | some c => s.sendToCrews (pageItem .page 0 c) ts

/-- The call takes the beacon of its step, if that has one (R55). -/
def State.takeBeacon (s : State) (n : Nat) : Option Nat → State
  | none => s
  | some z => s.changeCall n (Call.holding z)

/-- How a step resolves, with a preferred crew in its place or not (R52, R53). -/
def State.resolveFor (s : State) (pref : Option Nat) (k : StepKind) : Resolved × State :=
  match pref with
  | none => s.resolveStep k
  | some p => (s.resolveCrew p, s)

/-- The second half of a step start, its step resolved: an empty step advances, another one is completed (R54, R55). -/
def State.enterStep (adv : State → State) (n : Nat) (beacon : Option Nat) (r : Resolved × State) : State :=
  if r.1.empty then adv (r.2.changeCall n (Call.resolved r.1))
  else (r.2.changeCall n (Call.resolved r.1)).completeStep n r.1.targets beacon

theorem completeStep_eq (s : State) (n : Nat) (ts : List Nat) (beacon : Option Nat) :
    s.completeStep n ts beacon = ((s.changeCall n (Call.targeted ts)).pageTargets n ts).takeBeacon n beacon := rfl

theorem startStep_none (adv : State → State) (n i : Nat) (pref : Option Nat) (s : State)
    (h : s.findCall n = none) : State.startStep adv n i pref s = s := by
  unfold State.startStep; rw [h]

theorem startStep_eq (adv : State → State) (n i : Nat) (pref : Option Nat) (s : State) (c : Call)
    (x : LadderStep) (h : s.findCall n = some c) (hx : (s.ladder c.ladder).steps.getD (i - 1) .default = x) :
    State.startStep adv n i pref s = State.enterStep adv n x.beacon
      ((s.changeCall n (stepBookkeeping s.clock (s.factor c.cls) i x.window x.repeats)).resolveFor pref x.kind) := by
  subst hx
  unfold State.startStep
  rw [h]
  cases pref <;> rfl

theorem advance_none (fuel n : Nat) (s : State) (h : s.findCall n = none) : State.advance fuel n s = s := by
  cases fuel with
  | zero => rfl
  | succ fuel => unfold State.advance; rw [h]

theorem advance_succ (fuel n : Nat) (s : State) (c : Call) (h : s.findCall n = some c) :
    State.advance (fuel + 1) n s =
      if c.stepIndex + 1 ≤ (s.ladder c.ladder).steps.length then
        State.startStep (State.advance fuel n) n (c.stepIndex + 1) none (s.changeCall n Call.advancing)
      else if c.restarts < (s.ladder c.ladder).restartLimit then
        State.startStep (State.advance fuel n) n 1 none
          ((s.changeCall n Call.advancing).changeCall n Call.restarted)
      else (s.changeCall n Call.advancing).changeCall n (Call.exhaustedBy (s.ladder c.ladder)) := by
  rw [State.advance.eq_2, h]
  rfl

theorem directStep_eq (s : State) (n crew b r : Nat) (c : Call) (h : s.findCall n = some c) :
    s.directStep n crew b r = (s.changeCall n (Call.redirected s.clock s.factor
      (if c.state = .exhausted then (s.ladder c.ladder).steps.length else c.stepIndex) b r)).completeStep
        n [crew] none := by
  unfold State.directStep; rw [h]; rfl

/-- What follows the replacement choice of a decline (R61, R62). -/
def State.afterDecline (n : Nat) (c : Call) (r : Option Nat × State) : State :=
  match r.1 with
  | some x => (r.2.changeCall n (Call.joinedBy x)).sendToCrews (pageItem .page 0 c) [x]
  | none => if c.undeclined = [] then r.2.advanceCall n else r.2

theorem engineDecline_none (s : State) (n crew : Nat) (h : s.findCall n = none) :
    s.engineDecline n crew = s := by
  unfold State.engineDecline; rw [h]

theorem engineDecline_eq (s : State) (n crew : Nat) (c : Call) (h : s.findCall n = some c) :
    s.engineDecline n crew = if c.declined.contains crew then s else
      State.afterDecline n (c.declinedBy crew)
        ((s.changeCall n (Call.declinedBy crew)).replacement (c.declinedBy crew)) := by
  unfold State.engineDecline; rw [h]; rfl

/-! ### What no step of the engine changes of a record -/

/-- A change of a call record that keeps its fixed fields and its accepting crew. -/
structure Call.Keeps (a b : Call) : Prop where
  same : a.SameIdentity b
  accepting : a.accepting = b.accepting

theorem Call.targeted_keeps (ts : List Nat) (c : Call) : (Call.targeted ts c).Keeps c :=
  ⟨⟨rfl, rfl, rfl, rfl, rfl, rfl, rfl, rfl⟩, rfl⟩
theorem Call.holding_keeps (z : Nat) (c : Call) : (Call.holding z c).Keeps c :=
  ⟨⟨rfl, rfl, rfl, rfl, rfl, rfl, rfl, rfl⟩, rfl⟩
theorem Call.resolved_keeps (r : Resolved) (c : Call) : (Call.resolved r c).Keeps c :=
  ⟨⟨rfl, rfl, rfl, rfl, rfl, rfl, rfl, rfl⟩, rfl⟩
theorem Call.advancing_keeps (c : Call) : (Call.advancing c).Keeps c :=
  ⟨⟨rfl, rfl, rfl, rfl, rfl, rfl, rfl, rfl⟩, rfl⟩
theorem Call.restarted_keeps (c : Call) : (Call.restarted c).Keeps c :=
  ⟨⟨rfl, rfl, rfl, rfl, rfl, rfl, rfl, rfl⟩, rfl⟩
theorem Call.redirected_keeps (now : Tick) (f : Cls → Nat) (i b r : Nat) (c : Call) :
    (Call.redirected now f i b r c).Keeps c :=
  ⟨⟨rfl, rfl, rfl, rfl, rfl, rfl, rfl, rfl⟩, rfl⟩
theorem Call.declinedBy_keeps (crew : Nat) (c : Call) : (Call.declinedBy crew c).Keeps c :=
  ⟨⟨rfl, rfl, rfl, rfl, rfl, rfl, rfl, rfl⟩, rfl⟩
theorem Call.joinedBy_keeps (x : Nat) (c : Call) : (Call.joinedBy x c).Keeps c :=
  ⟨⟨rfl, rfl, rfl, rfl, rfl, rfl, rfl, rfl⟩, rfl⟩
theorem Call.repeated_keeps (k : Nat) (c : Call) : (Call.repeated k c).Keeps c :=
  ⟨⟨rfl, rfl, rfl, rfl, rfl, rfl, rfl, rfl⟩, rfl⟩
theorem Call.exhaustedBy_keeps (lad : Ladder) (c : Call) : (Call.exhaustedBy lad c).Keeps c :=
  ⟨⟨rfl, rfl, rfl, rfl, rfl, rfl, rfl, rfl⟩, rfl⟩
theorem stepBookkeeping_keeps (now : Tick) (f i b r : Nat) (c : Call) :
    (stepBookkeeping now f i b r c).Keeps c := ⟨stepBookkeeping_same now f i b r c, rfl⟩

end Sys2Proof.Machine
end

section
/-!
SUPPORT. The steps of the escalation engine, the locator and the scheduler once more, now with no condition on the
state they start from: which calls' identities and crews they keep, which queues they keep sound, what they post.
`EngineStep` says more of a step, and asks for a PAGING call.
-/

namespace Sys2Proof.Machine

/-- One small step of escalation, from any state. -/
inductive Act : State → State → Prop
  | change (s : State) (n : Nat) (f : Call → Call) (keeps : ∀ c, (f c).Keeps c) : Act s (s.changeCall n f)
  | pointer (s : State) (p k : Nat) : Act s (s.putPool p { s.pool p with pointer := k })
  | queue (s : State) (st : Nat) (q : StationQueue) (sound : (s.queue st).Sound → q.Sound) :
      Act s (s.putQueue st q)
  | withdraw (s : State) (n : Nat) : Act s (s.withdrawPages n)
  | grants (s : State) (g : Vector Group 4) (b : Byte) :
      Act s (s.setSched { s.sched with groups := g, burstId := b })
  | bursts (s : State) (l : List Nat) : Act s (s.setLine { s.line with burstWaits := l })

/-- A chain of such steps. -/
abbrev Acts : State → State → Prop := Relation.ReflTransGen Act

theorem Act.one {s t : State} (a : Act s t) : Acts s t := Relation.ReflTransGen.single a

theorem Acts.forEach {α : Type} (xs : List α) (f : α → State → State) (h : ∀ x s, Acts s (f x s)) (s : State) :
    Acts s (forEach xs f s) := by
  induction xs generalizing s with
  | nil => exact .refl
  | cons x xs ih => exact (h x s).trans (ih (f x s))

/-- A change that writes none of the fixed fields and not the accepting crew. -/
theorem acts_change (s : State) (n : Nat) (f : Call → Call) (h : ∀ c, (f c).Keeps c) :
    Acts s (s.changeCall n f) := (Act.change s n f h).one

/-! ### The scheduler and the locator -/

theorem acts_setForceWide (s : State) (n : Nat) : Acts s (s.setForceWide n) := by
  unfold State.setForceWide
  split
  · exact .refl
  · split
    · exact .refl
    · exact acts_change s n _ fun c => ⟨⟨rfl, rfl, rfl, rfl, rfl, rfl, rfl, rfl⟩, rfl⟩

theorem acts_putGroup (s : State) (g : Nat) (x : Group) : Acts s (s.putGroup g x) :=
  (Act.grants s (setRow s.sched.groups g x) s.sched.burstId).one

theorem acts_phase (s : State) (st : Nat) (p : Phase) : Acts s (s.putQueue st { s.queue st with phase := p }) :=
  (Act.queue s st { s.queue st with phase := p } fun h => h.of_items rfl rfl rfl).one

theorem acts_setWaitIdle (s : State) (st : Nat) (b : Bool) : Acts s (s.setWaitIdle st b) :=
  (Act.queue s st { s.queue st with waitIdle := b } fun h => h.of_items rfl rfl rfl).one

theorem acts_giveGrant (s : State) (g st n : Nat) : Acts s (s.giveGrant g st n) :=
  (acts_putGroup s g _).trans ((acts_phase _ st .granted).trans (Act.bursts _ _).one)

theorem acts_arbitrate (s : State) (g : Nat) : Acts s (s.arbitrate g) := by
  unfold State.arbitrate
  dsimp only
  split
  · exact .refl
  · split
    · exact acts_giveGrant _ _ _ _
    · split
      · exact acts_giveGrant _ _ _ _
      · split
        · exact acts_giveGrant _ _ _ _
        · exact .refl

theorem acts_releaseGrant (s : State) (st : Nat) : Acts s (s.releaseGrant st) := by
  unfold State.releaseGrant
  dsimp only
  split
  · exact (acts_putGroup s _ _).trans ((acts_phase _ st .none).trans (Act.bursts _ _).one)
  · exact .refl

theorem acts_loseItem (s : State) (o : Option Item) : Acts s (s.loseItem o) := by
  cases o with
  | none => exact .refl
  | some i =>
    dsimp only [State.loseItem]
    split
    · exact acts_setForceWide _ _
    · exact .refl

theorem acts_place (copy : Item) (st : Nat) (s : State) : Acts s (State.place copy st s) :=
  ((Act.queue s st _ fun h => h.accept copy).one.trans (acts_loseItem _ _)).trans (acts_arbitrate _ _)

theorem acts_widenIfOpen (i : Item) (s : State) : Acts s (State.widenIfOpen i s) := by
  unfold State.widenIfOpen
  split
  · split
    · exact .refl
    · split
      · exact .refl
      · exact acts_setForceWide _ _
  · exact .refl

theorem acts_flush (s : State) (st : Nat) : Acts s (s.flush st) :=
  (((acts_releaseGrant s st).trans (Act.queue _ st .empty fun _ => StationQueue.empty_sound).one).trans
    (Acts.forEach _ _ acts_widenIfOpen _)).trans (acts_arbitrate _ _)

theorem acts_returnItems (s : State) (st : Nat) : Acts s (s.returnItems st) :=
  (Act.queue s st _ fun h => h.giveBack _ List.filter_sublist).one

theorem acts_burstFailed (s : State) (st : Nat) : Acts s (s.burstFailed st) :=
  (((acts_releaseGrant s st).trans (acts_returnItems _ st)).trans (acts_setWaitIdle _ st true)).trans
    (acts_arbitrate _ _)

theorem acts_burstTaken (s : State) (st : Nat) : Acts s (s.burstTaken st) :=
  (Act.queue s st { s.queue st with flight := none, phase := .onAir } fun h => h.sent rfl rfl rfl).one.trans
    (acts_putGroup _ _ _)

theorem acts_transmitterSeen (s : State) (st : Nat) (busy : Bool) : Acts s (s.transmitterSeen st busy) := by
  unfold State.transmitterSeen
  cases busy with
  | true => exact .refl
  | false =>
    simp only [Bool.false_eq_true, if_false]
    split
    · exact ((acts_releaseGrant s st).trans (acts_setWaitIdle _ st false)).trans (acts_arbitrate _ _)
    · exact (acts_setWaitIdle s st false).trans (acts_arbitrate _ _)

theorem acts_formBurst (s : State) (st : Nat) : Acts s (s.formBurst st).1 :=
  (Act.queue s st _ fun h => h.form
    ⟨s.sched.burstId, (s.queue st).waiting.take Config.burstCap⟩ rfl rfl rfl rfl).one.trans (Act.grants _ _ _).one

theorem acts_produce (i : Item) (s : State) : Acts s (State.produce i s) := by
  unfold State.produce
  split
  · split
    · exact acts_setForceWide _ _
    · exact .refl
  · exact Acts.forEach _ _ (acts_place i) _

theorem acts_sendToCrews (s : State) (mk : Nat → Item) (crews : List Nat) : Acts s (s.sendToCrews mk crews) :=
  Acts.forEach _ _ (fun p => acts_produce (mk p)) _

/-! ### The engine -/

theorem acts_chooseOne (s : State) (p : Nat) (a b : List Nat) : Acts s (s.chooseOne p a b).2 := by
  unfold State.chooseOne
  split
  · exact .refl
  · exact (Act.pointer s p _).one

theorem acts_resolveStep (s : State) (k : StepKind) : Acts s (s.resolveStep k).2 := by
  cases k with
  | poolOne p => exact acts_chooseOne s p [] []
  | _ => exact .refl

theorem acts_pageTargets (s : State) (n : Nat) (ts : List Nat) : Acts s (s.pageTargets n ts) := by
  unfold State.pageTargets
  split
  · exact .refl
  · exact acts_sendToCrews s _ ts

theorem acts_takeBeacon (s : State) (n : Nat) (beacon : Option Nat) : Acts s (s.takeBeacon n beacon) := by
  cases beacon with
  | none => exact .refl
  | some z => exact acts_change s n _ (Call.holding_keeps z)

theorem acts_completeStep (s : State) (n : Nat) (ts : List Nat) (beacon : Option Nat) :
    Acts s (s.completeStep n ts beacon) := by
  rw [completeStep_eq]
  exact ((acts_change s n _ (Call.targeted_keeps ts)).trans (acts_pageTargets _ n ts)).trans
    (acts_takeBeacon _ n beacon)

theorem acts_enterStep (adv : State → State) (n : Nat) (beacon : Option Nat) (r : Resolved × State)
    (ha : ∀ s, Acts s (adv s)) : Acts r.2 (State.enterStep adv n beacon r) := by
  have h := acts_change r.2 n (Call.resolved r.1) (Call.resolved_keeps r.1)
  unfold State.enterStep
  split
  · exact h.trans (ha _)
  · exact h.trans (acts_completeStep _ _ _ _)

theorem acts_resolveFor (s : State) (pref : Option Nat) (k : StepKind) : Acts s (s.resolveFor pref k).2 := by
  cases pref with
  | none => exact acts_resolveStep s k
  | some p => exact .refl

theorem acts_startStep (adv : State → State) (n i : Nat) (pref : Option Nat) (s : State)
    (ha : ∀ s, Acts s (adv s)) : Acts s (State.startStep adv n i pref s) := by
  cases hc : s.findCall n with
  | none => rw [startStep_none adv n i pref s hc]
  | some c =>
    rw [startStep_eq adv n i pref s c _ hc rfl]
    exact ((acts_change s n _ (stepBookkeeping_keeps _ _ _ _ _)).trans
      (acts_resolveFor _ pref _)).trans (acts_enterStep adv n _ _ ha)

theorem acts_advance (fuel n : Nat) (s : State) : Acts s (State.advance fuel n s) := by
  induction fuel generalizing s with
  | zero => exact .refl
  | succ fuel ih =>
    cases hc : s.findCall n with
    | none => rw [advance_none _ n s hc]
    | some c =>
      have h := acts_change s n Call.advancing Call.advancing_keeps
      rw [advance_succ fuel n s c hc]
      split
      · exact h.trans (acts_startStep _ n _ none _ ih)
      · split
        · exact (h.trans (acts_change _ n Call.restarted Call.restarted_keeps)).trans
            (acts_startStep _ n 1 none _ ih)
        · exact h.trans (acts_change _ n _ (Call.exhaustedBy_keeps _))

theorem acts_advanceCall (s : State) (n : Nat) : Acts s (s.advanceCall n) := acts_advance _ n s

theorem acts_startCall (s : State) (n : Nat) (pref : Option Nat) : Acts s (s.startCall n pref) :=
  acts_startStep _ n 1 pref s (acts_advance _ n)

theorem acts_advanceReferred (n : Nat) (s : State) : Acts s (State.advanceReferred n s) := by
  unfold State.advanceReferred
  split
  · exact .refl
  · split
    · exact acts_advanceCall s n
    · exact .refl

theorem acts_advanceAllReferred (s : State) : Acts s s.advanceAllReferred :=
  Acts.forEach _ _ acts_advanceReferred s

theorem acts_directStep (s : State) (n crew b r : Nat) : Acts s (s.directStep n crew b r) := by
  cases hc : s.findCall n with
  | none => unfold State.directStep; rw [hc]
  | some c =>
    rw [directStep_eq s n crew b r c hc]
    exact (acts_change s n _ (Call.redirected_keeps _ _ _ _ _)).trans (acts_completeStep _ _ _ _)

theorem acts_sendRepeat (s : State) (c : Call) : Acts s (s.sendRepeat c) :=
  (acts_sendToCrews s _ _).trans (acts_change _ _ _ (Call.repeated_keeps _))

theorem acts_replacement (s : State) (c : Call) : Acts s (s.replacement c).2 := by
  unfold State.replacement
  split
  · exact .refl
  · split
    · exact acts_chooseOne _ _ _ _
    · exact .refl

theorem acts_afterDecline (n : Nat) (c : Call) (r : Option Nat × State) :
    Acts r.2 (State.afterDecline n c r) := by
  unfold State.afterDecline
  split
  · exact (acts_change r.2 n _ (Call.joinedBy_keeps _)).trans (acts_sendToCrews _ _ _)
  · split
    · exact acts_advanceCall r.2 n
    · exact .refl

theorem acts_engineDecline (s : State) (n crew : Nat) : Acts s (s.engineDecline n crew) := by
  cases hc : s.findCall n with
  | none => rw [engineDecline_none s n crew hc]
  | some c =>
    rw [engineDecline_eq s n crew c hc]
    split
    · exact .refl
    · exact ((acts_change s n _ (Call.declinedBy_keeps crew)).trans (acts_replacement _ _)).trans
        (acts_afterDecline n _ _)

end Sys2Proof.Machine
end

section
/-!
SUPPORT. What the commands can do to the state, said once. `Prim` is a small change, from any state; `Move` is an
operation of the call book, the registry or the tables taken whole; `Run` is a whole command, which sends what is ready
at the end of each of its events. Every command but a reset is a `Run` (`exec_runs`).
-/

namespace Sys2Proof.Machine

/-- The recent-acknowledgement list of a state is sound. -/
abbrev State.acksOk (s : State) : Prop := acksSound s.acks

/-- What a directory entry says of who carries the pager. -/
def PagerEntry.key (e : PagerEntry) : Nat × Nat := (e.pager, e.owner)

/-- The call points are in range, at most as many as the table holds, and have distinct keys (R11). -/
def pointsInRange (ps : List CallPoint) : Prop :=
  (∀ p ∈ ps, p.stored.inRange = true) ∧ ps.length ≤ Config.maxPoints ∧
    (ps.map (fun p => (p.station, p.input))).Nodup

/-- A change that leaves alone all that the invariants below speak of: clocks, beacons, the line, the store's state,
locations, and what the outbound path is not made of. -/
structure Calm (s t : State) : Prop where
  book : t.book = s.book
  crews : t.registry.crews = s.registry.crews
  pools : t.registry.pools = s.registry.pools
  keys : t.registry.directory.map PagerEntry.key = s.registry.directory.map PagerEntry.key
  ladders : t.ladders = s.ladders
  sched : t.sched = s.sched
  params : t.store.params = s.store.params
  stations : ∀ st, (t.station st).stored = (s.station st).stored
  replies : t.link.replies = s.link.replies
  notices : t.link.notices = s.link.notices
  sending : ∀ f, t.link.sending = some f → s.link.sending = some f
  starting : t.link.state = .starting → s.link.state = .starting
  acks : s.acksOk → t.acksOk

theorem Calm.refl (s : State) : Calm s s :=
  ⟨rfl, rfl, rfl, rfl, rfl, rfl, rfl, fun _ => rfl, rfl, rfl, fun _ h => h, id, id⟩

/-- What a SET_CREW may make of crew record `c` (R32, R33). -/
structure CrewChange (s : State) (c : Nat) (x : Crew) : Prop where
  number : 1 ≤ c ∧ c ≤ 48
  inRange : (s.crew c).stored.inRange = true → x.stored.inRange = true
  accepted : x.accepted = (s.crew c).accepted
  members : x.members = (s.crew c).members ∨
    x.members.Nodup ∧ ∀ m ∈ x.members, s.carriedElsewhere c m = false

/-- A small change that a command can make, from any state. -/
inductive Prim : State → State → Prop
  | act {s t : State} (a : Act s t) : Prim s t
  | calm {s t : State} (c : Calm s t) : Prim s t
  | note (s : State) (k : NoticeKey) (listed : ∀ n, k = .call n → s.findCall n ≠ none) : Prim s (s.post k)
  | change (s : State) (n : Nat) (f : Call → Call) (number : ∀ c, (f c).number = c.number) :
      Prim s (s.changeCall n f)
  | book (s : State) (b : CallBook) (listed : ∀ n, s.findCall n ≠ none → (s.setBook b).findCall n ≠ none)
      (points : pointsInRange s.book.points → pointsInRange b.points) : Prim s (s.setBook b)
  | remove (s : State) (n : Nat) : Prim s (s.removeCall n)
  | accepted (s : State) (c : Nat) (l : List Nat)
      (room : (s.crew c).accepted.length ≤ Config.maxAccepted → l.length ≤ Config.maxAccepted) :
      Prim s (s.putCrew c { s.crew c with accepted := l })
  | crew (s : State) (c : Nat) (x : Crew) (change : CrewChange s c x) : Prim s (s.replaceCrew c x)
  | pool (s : State) (p : Nat) (l : List Nat) (inRange : poolInRange l = true) :
      Prim s (s.putPool p ⟨l, l.length⟩)
  | ladder (s : State) (k : Nat) (l : Ladder) (inRange : l.inRange = true) :
      Prim s (s.setLadders (setRow s.ladders k l))
  | station (s : State) (st : Nat) (x : Station)
      (inRange : (s.station st).stored.inRange st = true → x.stored.inRange st = true) :
      Prim s (s.putStation st x)
  | params (s : State) (p : Params) (inRange : s.store.params.inRange = true → p.inRange = true) :
      Prim s (s.setStore { s.store with params := p })
  | install (s : State) (img : Image) (consistent : img.consistent = true) : Prim s (s.install img)

/-- A chain of such changes. -/
abbrev Prims : State → State → Prop := Relation.ReflTransGen Prim

theorem Prim.one {s t : State} (p : Prim s t) : Prims s t := Relation.ReflTransGen.single p

theorem Acts.prims {s t : State} (a : Acts s t) : Prims s t := by
  induction a with
  | refl => exact .refl
  | tail _ h ih => exact ih.tail (.act h)

/-! ### Operations taken whole -/

/-- A change that concerns neither the call book, nor the pools, nor the crews' accepted lists. -/
structure Quiet (s t : State) : Prop where
  book : t.book = s.book
  pools : t.registry.pools = s.registry.pools
  accepted : ∀ c, (t.crew c).accepted = (s.crew c).accepted
  starting : t.link.state = .starting → s.link.state = .starting
  sending : ∀ f, t.link.sending = some f → s.link.sending = some f

theorem Calm.quiet {s t : State} (h : Calm s t) : Quiet s t :=
  ⟨h.book, h.pools, fun c => by unfold State.crew; rw [h.crews], h.starting, h.sending⟩

/-- Any call may change. -/
def anyCall : Nat → Prop := fun _ => True

/-- The record a press at entry `p` raises in state `s` (R8, R14). -/
def State.pressCall (s : State) (p : CallPoint) : Call :=
  newCall s.book.nextNumber (.callPoint p.station p.input) p.station p.cls p.ladder p.text none s.clock

/-- A press that waits: its entry PENDING, its key on the list (R16). -/
def State.pressWaits (s : State) (st i : Nat) : State :=
  (s.setPoint st i .pending).setBook { (s.setPoint st i .pending).book with
    pendingPresses := s.book.pendingPresses ++ [(st, i)] }

/-- A press counted (R15). -/
def Call.pressed (c : Call) : Call := { c with presses := min 255 (c.presses + 1) }

/-- An operation taken whole: an escalation, or an operation on the call book, the pools or the accepted lists. -/
inductive Move : State → State → Prop
  | other {s t : State} (prims : Prims s t) (quiet : Quiet s t) : Move s t
  | escalate {s t : State} (acts : Acts s t) (engine : Engine anyCall s t) : Move s t
  | pool (s : State) (p : Nat) (l : List Nat) (inRange : poolInRange l = true) :
      Move s (s.putPool p ⟨l, l.length⟩)
  | raise (s u : State) (c : Call) (pref : Option Nat) (slot : s.obtainSlot = some u)
      (running : s.link.state ≠ .starting) (origin cls lad text)
      (new : c = newCall u.book.nextNumber .plantComputer origin cls lad text pref u.clock) :
      Move s ((u.addCall c).startCall c.number pref)
  | press (s u : State) (p : CallPoint) (slot : s.obtainSlot = some u)
      (found : s.findPoint p.station p.input = some p) (idle : p.state = .idle) : Move s (u.raiseFromPoint p)
  | pressWaits (s : State) (p : CallPoint) (slot : s.obtainSlot = none)
      (found : s.findPoint p.station p.input = some p) (idle : p.state = .idle) :
      Move s (s.pressWaits p.station p.input)
  | pressed (s : State) (n : Nat) (p : CallPoint) (found : s.findPoint p.station p.input = some p)
      (opened : p.state = .opened n) : Move s (s.changeCall n Call.pressed)
  | close (s : State) (r : CloseReason) (c : Call) (found : s.findCall c.number = some c)
      (opened : c.state ≠ .closed) : Move s (s.closeCall r c.number)
  | accept (s : State) (c : Call) (crew : Nat) (heard : Tick) (found : s.findCall c.number = some c)
      (waits : c.state = .paging ∨ c.state = .exhausted) (room : s.hasRoom crew = true)
      (owner : ∃ e ∈ s.registry.directory, e.owner = crew) : Move s (s.acceptCall c crew heard)
  | release (s : State) (c : Call) (found : s.findCall c.number = some c) (state : c.state = .accepted) :
      Move s (s.releaseCrew c)
  | define (s : State) (st i l : Nat) (cls : Cls) (text : Text) (running : s.link.state ≠ .starting)
      (inRange : StoredPoint.inRange ⟨st, i, l, cls, text⟩ = true)
      (room : s.findPoint st i = none → s.book.points.length < Config.maxPoints) :
      Move s (s.definePoint st i l cls text)
  | undefine (s : State) (p : CallPoint) (found : s.findPoint p.station p.input = some p)
      (closed : ∀ n, p.state ≠ .opened n) : Move s (s.removePoint p.station p.input)
  | load (s : State) (img : Image) (r : LoadResult) (starting : s.link.state = .starting)
      (consistent : img.consistent = true) :
      Move s ((s.install img).setStore { (s.install img).store with loadResult := some r }).enterOnline
  | sent (s : State) (f : Frame) (h : Bool) (found : s.link.sending = some f) :
      Move s ((s.setLink { s.link with sending := none, hcts := h }).freeSent f)

/-- A chain of such operations. -/
abbrev Moves : State → State → Prop := Relation.ReflTransGen Move

theorem Move.one {s t : State} (m : Move s t) : Moves s t := Relation.ReflTransGen.single m

theorem Calm.moves {s t : State} (h : Calm s t) : Moves s t := (Move.other (Prim.calm h).one h.quiet).one

theorem Moves.forEach {α : Type} (xs : List α) (f : α → State → State) (h : ∀ x s, Moves s (f x s)) (s : State) :
    Moves s (forEach xs f s) := by
  induction xs generalizing s with
  | nil => exact .refl
  | cons x xs ih => exact (h x s).trans (ih (f x s))

/-! ### Whole commands -/

/-- The outbound path and what is ready for it stand as they were. -/
structure SameOutbound (s t : State) : Prop where
  hcts : t.link.hcts = s.link.hcts
  state : t.link.state = s.link.state
  sending : t.link.sending = s.link.sending
  replies : t.link.replies = s.link.replies
  notices : t.link.notices = s.link.notices

/-- A command at work: changes that make nothing ready, and events, each of which ends with the start of a frame that
is ready (R169); an event may queue a reply where there is room for one (R166). -/
inductive Run : State → State → Prop
  | refl (s : State) : Run s s
  | still {s t u : State} (r : Run s t) (m : Moves t u) (out : SameOutbound t u) : Run s u
  | event {s t u : State} (r : Run s t) (m : Moves t u) : Run s u.sendReady
  | reply {s t u : State} (r : Run s t) (m : Moves t u) (room : t.link.replies.length < Config.maxReplies)
      (x : Reply) : Run s (u.setLink { u.link with replies := u.link.replies ++ [x] }).sendReady

theorem Run.trans {s t u : State} (a : Run s t) (b : Run t u) : Run s u := by
  induction b with
  | refl => exact a
  | still _ m o ih => exact .still ih m o
  | event _ m ih => exact .event ih m
  | reply _ m o x ih => exact .reply ih m o x

theorem Run.forEach {α : Type} (xs : List α) (f : α → State → State) (h : ∀ x s, Run s (f x s)) (s : State) :
    Run s (forEach xs f s) := by
  induction xs generalizing s with
  | nil => exact .refl s
  | cons x xs ih => exact (h x s).trans (ih (f x s))

end Sys2Proof.Machine
end

section
/-!
SUPPORT. The moves that each operation of the blocks is made of, in the order of the blocks.
-/

namespace Sys2Proof.Machine

/-! ### Calm changes, block by block -/

theorem calm_setClock (s : State) (x : Tick) : Calm s (s.setClock x) :=
  ⟨rfl, rfl, rfl, rfl, rfl, rfl, rfl, fun _ => rfl, rfl, rfl, fun _ h => h, id, id⟩

theorem calm_setPending (s : State) (x : List Instr) : Calm s (s.setPending x) :=
  ⟨rfl, rfl, rfl, rfl, rfl, rfl, rfl, fun _ => rfl, rfl, rfl, fun _ h => h, id, id⟩

theorem calm_setBeacons (s : State) (x : Vector Beacon 8) : Calm s (s.setBeacons x) :=
  ⟨rfl, rfl, rfl, rfl, rfl, rfl, rfl, fun _ => rfl, rfl, rfl, fun _ h => h, id, id⟩

theorem calm_setAcks (s : State) (x : List AckEntry) (h : s.acksOk → acksSound x) : Calm s (s.setAcks x) :=
  ⟨rfl, rfl, rfl, rfl, rfl, rfl, rfl, fun _ => rfl, rfl, rfl, fun _ h => h, id, h⟩

theorem calm_setLine (s : State) (x : Line) (h : x.stations = s.line.stations) : Calm s (s.setLine x) :=
  ⟨rfl, rfl, rfl, rfl, rfl, rfl, rfl, fun st => by simp [State.station, h], rfl, rfl, fun _ h => h, id, id⟩

theorem calm_setStore (s : State) (x : Store) (h : x.params = s.store.params) : Calm s (s.setStore x) :=
  ⟨rfl, rfl, rfl, rfl, rfl, rfl, h, fun _ => rfl, rfl, rfl, fun _ h => h, id, id⟩

theorem calm_setLink (s : State) (x : Link) (hr : x.replies = s.link.replies) (hn : x.notices = s.link.notices)
    (hf : ∀ f, x.sending = some f → s.link.sending = some f)
    (hs : x.state = .starting → s.link.state = .starting) : Calm s (s.setLink x) :=
  ⟨rfl, rfl, rfl, rfl, rfl, rfl, rfl, fun _ => rfl, hr, hn, hf, hs, id⟩

theorem calm_directory (s : State) (d : List PagerEntry)
    (h : d.map PagerEntry.key = s.registry.directory.map PagerEntry.key) :
    Calm s (s.setRegistry { s.registry with directory := d }) :=
  ⟨rfl, rfl, rfl, h, rfl, rfl, rfl, fun _ => rfl, rfl, rfl, fun _ h => h, id, id⟩

/-- A station whose stored values stay (R178). -/
theorem calm_putStation (s : State) (st : Nat) (x : Station) (h : x.stored = (s.station st).stored) :
    Calm s (s.putStation st x) := by
  refine ⟨rfl, rfl, rfl, rfl, rfl, rfl, rfl, fun k => ?_, rfl, rfl, fun _ h => h, id, id⟩
  rw [State.putStation_station_eq]
  split
  · next hk => rw [h, hk.1]
  · rfl

/-! ### Posting and the scheduler -/

/-- A record of no call is posted. -/
theorem moves_post (s : State) (k : NoticeKey) (h : ∀ n, k ≠ .call n) : Moves s (s.post k) :=
  (Move.other (Prim.note s k fun n e => absurd e (h n)).one
    ⟨by simp, by simp, fun _ => by simp, by simp [State.post_link], fun f => by simp [State.post_link]⟩).one

/-- An escalation, in the terms of both chains. -/
theorem Acts.moves {s t : State} {own : Nat → Prop} (a : Acts s t) (e : Engine own s t) : Moves s t :=
  (Move.escalate a (Engine.mono (fun _ _ => trivial) e)).one

theorem moves_arbitrate (s : State) (g : Nat) : Moves s (s.arbitrate g) :=
  (acts_arbitrate s g).moves (engine_arbitrate (own := noCall) s g)

theorem moves_releaseGrant (s : State) (st : Nat) : Moves s (s.releaseGrant st) :=
  (acts_releaseGrant s st).moves (engine_releaseGrant (own := noCall) s st)

theorem moves_setWaitIdle (s : State) (st : Nat) (b : Bool) : Moves s (s.setWaitIdle st b) :=
  (acts_setWaitIdle s st b).moves (engine_setWaitIdle (own := noCall) s st b)

theorem moves_flush (s : State) (st : Nat) : Moves s (s.flush st) :=
  (acts_flush s st).moves (engine_flush (own := noCall) s st)

theorem moves_returnItems (s : State) (st : Nat) : Moves s (s.returnItems st) :=
  (acts_returnItems s st).moves (engine_returnItems (own := noCall) s st)

theorem moves_burstFailed (s : State) (st : Nat) : Moves s (s.burstFailed st) :=
  (acts_burstFailed s st).moves (engine_burstFailed (own := noCall) s st)

theorem moves_burstTaken (s : State) (st : Nat) : Moves s (s.burstTaken st) :=
  (acts_burstTaken s st).moves (engine_burstTaken (own := noCall) s st)

theorem moves_transmitterSeen (s : State) (st : Nat) (busy : Bool) : Moves s (s.transmitterSeen st busy) :=
  (acts_transmitterSeen s st busy).moves (engine_transmitterSeen (own := noCall) s st busy)

theorem moves_formBurst (s : State) (st : Nat) : Moves s (s.formBurst st).1 :=
  (acts_formBurst s st).moves (engine_formBurst (own := noCall) s st)

theorem moves_sendToCrews (s : State) (mk : Nat → Item) (crews : List Nat) : Moves s (s.sendToCrews mk crews) :=
  (acts_sendToCrews s mk crews).moves (engine_sendToCrews (own := noCall) s mk crews)

/-! ### Beacons and the locator -/

theorem calm_actBeacon (s : State) (z : Nat) : Calm s (s.actBeacon z) := by
  rw [State.actBeacon_rest]; exact calm_setBeacons s _

theorem moves_setHold (s : State) (z : Nat) (h : Option Cls) : Moves s (s.setHold z h) :=
  (calm_setBeacons s _).moves.trans (calm_actBeacon _ z).moves

theorem calm_beaconTick (s : State) (z : Nat) : Calm s (s.beaconTick z) := by
  unfold State.beaconTick
  dsimp only
  split
  · exact .refl s
  · exact calm_setBeacons s _

theorem moves_restartIfChanged (before : PerClass Pattern) (z : Nat) (s : State) :
    Moves s (State.restartIfChanged before z s) := by
  unfold State.restartIfChanged
  split
  · exact .refl
  · split
    · exact .refl
    · exact (calm_setBeacons s _).moves

theorem calm_seePager (s : State) (pager : Nat) (l : Location) : Calm s (s.seePager pager l) := by
  refine calm_directory s _ ?_
  rw [List.map_map]
  refine List.map_congr_left fun e _ => ?_
  by_cases h : e.pager = pager <;> simp [h, PagerEntry.key]

theorem ageLocation_key (now : Tick) (e : PagerEntry) : (ageLocation now e).key = e.key := by
  unfold ageLocation
  split
  · rfl
  · split <;> rfl

/-! ### The engine -/

theorem moves_advanceCall (s : State) (n : Nat) (h : s.PagingAt n) : Moves s (s.advanceCall n) :=
  (acts_advanceCall s n).moves (engine_advanceCall s n h)

theorem moves_advanceAllReferred (s : State) : Moves s s.advanceAllReferred :=
  (acts_advanceAllReferred s).moves (engine_advanceAllReferred s)

theorem moves_engineDecline (s : State) (n crew : Nat) (c : Call) (hc : s.findCall n = some c)
    (hs : c.state = .paging) (ht : crew ∈ c.targets) : Moves s (s.engineDecline n crew) :=
  (acts_engineDecline s n crew).moves (engine_engineDecline s n crew c hc hs ht)

/-- What is known of the one call that a number names. -/
theorem State.pagingAt_of_found {s : State} {n : Nat} {c : Call} (hc : s.findCall n = some c)
    (hs : c.state = .paging) : s.PagingAt n :=
  fun x hx => by rw [hc] at hx; exact Option.some.inj hx ▸ hs

/-- Counting a press keeps the call PAGING. -/
theorem pagingAt_pressed {s : State} {n : Nat} {c : Call} (hc : s.findCall n = some c) (hs : c.state = .paging) :
    (s.changeCall n Call.pressed).PagingAt n :=
  (State.pagingAt_of_found hc hs).change Call.pressed (fun _ => rfl) fun _ h => h

/-- A released call is PAGING. -/
theorem pagingAt_releaseCrew (s : State) (c : Call) : (s.releaseCrew c).PagingAt c.number := by
  have h : (s.changeCall c.number fun c => { c with
      arrivalDeadline := none, accepting := none, state := .paging }).PagingAt c.number := by
    intro x hx
    obtain ⟨y, -, rfl⟩ := changeCall_at hx fun _ => rfl
    rfl
  unfold State.releaseCrew
  dsimp only
  split
  · exact h
  · intro x hx
    refine h x ?_
    simpa [State.leaveCrew, State.changeCrew] using hx

/-! ### Presses (R13 to R17) -/

theorem State.findPoint_key {s : State} {st i : Nat} {p : CallPoint} (h : s.findPoint st i = some p) :
    p.station = st ∧ p.input = i := by
  simpa using List.find?_some h

theorem pressOpen_none (s : State) (n : Nat) (h : s.findCall n = none) : s.pressOpen n = s := by
  unfold State.pressOpen; rw [h]

theorem pressOpen_eq (s : State) (n : Nat) (c : Call) (h : s.findCall n = some c) :
    s.pressOpen n = if c.state = .paging then (s.changeCall n Call.pressed).advanceCall n
      else s.changeCall n Call.pressed := by
  unfold State.pressOpen; rw [h]; rfl

/-- What a press does, by the entry of its key (R13 to R16). -/
theorem press_eq (s : State) (p : CallPoint) (h : s.findPoint p.station p.input = some p) :
    s.press p.station p.input = match p.state with
      | .idle => match s.obtainSlot with
        | some u => u.raiseFromPoint p
        | none => s.pressWaits p.station p.input
      | .opened n => s.pressOpen n
      | .pending => s := by
  unfold State.press
  rw [h]
  rfl

theorem moves_press (s : State) (st i : Nat) : Moves s (s.press st i) := by
  cases hf : s.findPoint st i with
  | none => unfold State.press; rw [hf]
  | some p =>
    obtain ⟨rfl, rfl⟩ := State.findPoint_key hf
    rw [press_eq s p hf]
    cases hp : p.state with
    | idle =>
      cases hu : s.obtainSlot with
      | some u => exact (Move.press s u p hu hf hp).one
      | none => exact (Move.pressWaits s p hu hf hp).one
    | opened n =>
      cases hc : s.findCall n with
      | none =>
        dsimp only
        rw [pressOpen_none s n hc]
      | some c =>
        dsimp only
        rw [pressOpen_eq s n c hc]
        have h := (Move.pressed s n p hf hp).one
        split
        · next hs => exact h.trans (moves_advanceCall _ n (pagingAt_pressed hc hs))
        · exact h
    | pending => exact .refl

/-! ### Acknowledgements (4.2, 4.4) -/

/-- The state of a call once crew `crew` has accepted it (R81). -/
def Call.acceptedBy (crew : Nat) (heard : Tick) (now : Tick) (window : Call → Nat) (c : Call) : Call :=
  { c with
    state := .accepted
    accepting := some crew
    acceptTick := some heard
    onSceneTick := none
    stepDeadline := none
    nextRepeat := none
    arrivalDeadline := some (tickAfter now (window c))
    heldBeacon := none
    referred := false
    directed := false }

/-- The record and the crew at an acceptance, before pages are withdrawn and stand-downs sent (R81). -/
def State.acceptRecord (s : State) (c : Call) (crew : Nat) (heard : Tick) : State :=
  let t := s.changeCall c.number (Call.acceptedBy crew heard s.clock s.arrivalWindow)
  t.changeCrew crew { s.crew crew with accepted := (s.crew crew).accepted ++ [c.number] }

theorem acceptCall_eq (s : State) (c : Call) (crew : Nat) (heard : Tick) :
    s.acceptCall c crew heard = ((s.acceptRecord c crew heard).withdrawPages c.number).sendToCrews
      (standDown c (((s.acceptRecord c crew heard).withdrawPages c.number).crew crew).name)
      (stoodDown c crew) := by
  unfold State.acceptRecord
  rw [← State.changeCall_crew s c.number crew (Call.acceptedBy crew heard s.clock s.arrivalWindow)]
  rfl

@[simp] theorem State.changeCrew_findCall (s : State) (k n : Nat) (x : Crew) :
    (s.changeCrew k x).findCall n = s.findCall n := by
  unfold State.changeCrew; simp

theorem acceptRecord_findCall (s : State) (c : Call) (crew : Nat) (heard : Tick) (m : Nat) :
    (s.acceptRecord c crew heard).findCall m = (s.findCall m).map (fun x =>
      if m = c.number then Call.acceptedBy crew heard s.clock s.arrivalWindow x else x) := by
  unfold State.acceptRecord
  rw [State.changeCrew_findCall]
  exact State.changeCall_findCall s c.number m _ fun _ => rfl

@[simp] theorem State.withdrawPages_findCall (s : State) (n m : Nat) :
    (s.withdrawPages n).findCall m = s.findCall m := rfl

/-- The record of an accepted call, its force-wide flag aside. -/
theorem acceptCall_found (s : State) (c : Call) (crew : Nat) (heard : Tick) (hc : s.findCall c.number = some c) :
    ∃ x, (s.acceptCall c crew heard).findCall c.number = some x ∧
      x.core = (Call.acceptedBy crew heard s.clock s.arrivalWindow c).core := by
  rw [acceptCall_eq]
  refine (engine_sendToCrews (own := noCall) _ _ _).frame.found id ?_
  rw [State.withdrawPages_findCall, acceptRecord_findCall, hc]
  simp

theorem moves_acceptAsDecline (s : State) (c : Call) (crew : Nat) (hc : s.findCall c.number = some c) :
    Moves s (s.acceptAsDecline c crew) := by
  have h := moves_post s (.crew crew) (fun _ => nofun)
  unfold State.acceptAsDecline
  dsimp only
  split
  · next hs =>
    refine h.trans (moves_engineDecline _ _ _ c ?_ hs.1 (by simpa using hs.2))
    simpa using hc
  · exact h

theorem moves_lateAccept (s : State) (c : Call) (crew : Nat) : Moves s (s.lateAccept c crew) := by
  unfold State.lateAccept
  split
  · exact .refl
  · split
    · exact .refl
    · split
      · exact moves_sendToCrews _ _ _
      · exact .refl

/-- An arrival recorded (R86, R87). -/
def Call.arrived (f : Call → Option Tick) (c : Call) : Call :=
  { c with state := .onScene, onSceneTick := f c, arrivalDeadline := none }

/-- An arrival at an ACCEPTED call is a change that the engine may make. -/
theorem moves_arrived (s : State) (n : Nat) (f : Call → Option Tick) (x : Call) (hx : s.findCall n = some x)
    (hs : x.state = .accepted) : Moves s (s.changeCall n (Call.arrived f)) := by
  refine (acts_change s n (Call.arrived f) fun c => ⟨⟨rfl, rfl, rfl, rfl, rfl, rfl, rfl, rfl⟩, rfl⟩).moves
    (engine_changeOwn s n (Call.arrived f) fun c hc => ?_)
  obtain rfl := Option.some.inj (hx.symm.trans hc)
  refine ⟨by simp [hs], nofun, ⟨rfl, rfl, rfl, rfl, rfl, rfl, rfl, rfl⟩, fun _ h => ?_⟩
  exact { accepting := by simpa [hs, Call.arrived] using h.accepting
          reason := by simpa [hs, Call.arrived] using h.reason
          arrival := nofun
          deadline := fun e => absurd (hs.symm.trans (h.deadline e)) nofun
          nextRepeat := fun e => absurd (hs.symm.trans (h.nextRepeat e)) nofun
          beacon := fun e => (h.beacon e).elim (fun k => absurd (hs.symm.trans k) nofun)
            fun k => absurd (hs.symm.trans k) nofun
          targetCount := h.targetCount
          targetsDistinct := h.targetsDistinct
          declined := h.declined }

/-- An ACCEPT or ON_SCENE of a crew of the paged set with room is an acceptance. -/
theorem moves_acceptCall (s : State) (c : Call) (crew : Nat) (heard : Tick) (hc : s.findCall c.number = some c)
    (hs : c.state = .paging ∨ c.state = .exhausted) (hr : s.hasRoom crew = true)
    (ho : ∃ e ∈ s.registry.directory, e.owner = crew) : Moves s (s.acceptCall c crew heard) :=
  (Move.accept s c crew heard hc hs hr ho).one

theorem moves_ackAccept (s : State) (c : Call) (crew : Nat) (heard : Tick) (hc : s.findCall c.number = some c)
    (ho : ∃ e ∈ s.registry.directory, e.owner = crew) : Moves s (s.ackAccept c crew heard) := by
  have waits : c.state = .paging ∨ c.state = .exhausted →
      Moves s (if !c.paged.contains crew then s else if s.hasRoom crew then s.acceptCall c crew heard
        else s.acceptAsDecline c crew) := fun hs => by
    split
    · exact .refl
    · split
      · next hr => exact moves_acceptCall s c crew heard hc hs hr ho
      · exact moves_acceptAsDecline s c crew hc
  unfold State.ackAccept
  split
  · next hs => exact waits (.inl hs)
  · next hs => exact waits (.inr hs)
  · exact moves_lateAccept s c crew
  · exact moves_lateAccept s c crew
  · exact .refl

theorem moves_ackDecline (s : State) (c : Call) (crew : Nat) (hc : s.findCall c.number = some c) :
    Moves s (s.ackDecline c crew) := by
  unfold State.ackDecline
  split
  · next h => exact moves_engineDecline s _ crew c hc h.1 (by simpa using h.2)
  · exact .refl

theorem moves_ackOnScene (s : State) (c : Call) (crew : Nat) (heard : Tick) (hc : s.findCall c.number = some c)
    (ho : ∃ e ∈ s.registry.directory, e.owner = crew) : Moves s (s.ackOnScene c crew heard) := by
  have waits : c.state = .paging ∨ c.state = .exhausted →
      Moves s (if !c.paged.contains crew then s else if s.hasRoom crew then
        (s.acceptCall c crew heard).changeCall c.number (Call.arrived Call.acceptTick)
        else s.acceptAsDecline c crew) := fun hs => by
    split
    · exact .refl
    · split
      · next hr =>
        obtain ⟨x, hx, hcore⟩ := acceptCall_found s c crew heard hc
        exact (moves_acceptCall s c crew heard hc hs hr ho).trans
          (moves_arrived _ _ _ x hx (congrArg Call.state hcore))
      · exact moves_acceptAsDecline s c crew hc
  unfold State.ackOnScene
  split
  · next hs => exact waits (.inl hs)
  · next hs => exact waits (.inr hs)
  · next hs =>
    split
    · exact moves_arrived s c.number (fun c => some (arrivalTick c.acceptTick heard)) c hc hs
    · exact .refl
  · exact .refl
  · exact .refl

theorem moves_ackDone (s : State) (c : Call) (crew : Nat) (hc : s.findCall c.number = some c) :
    Moves s (s.ackDone c crew) := by
  have close : c.state ≠ .closed →
      Moves s (if c.accepting = some crew then s.closeCall .doneByCrew c.number else s) := fun hs => by
    split
    · exact (Move.close s _ c hc hs).one
    · exact .refl
  unfold State.ackDone
  split
  · next hs => exact close (by simp [hs])
  · next hs => exact close (by simp [hs])
  · exact .refl
  · exact .refl
  · exact .refl

theorem moves_matchAck (s : State) (r : AckRecord) (heard : Tick) : Moves s (s.matchAck r heard) := by
  unfold State.matchAck
  split
  · exact .refl
  · next e he =>
    split
    · exact .refl
    · next c hc =>
      have hc' : s.findCall c.number = some c := by rw [State.findCall_number hc]; exact hc
      have ho : ∃ x ∈ s.registry.directory, x.owner = e.owner := ⟨e, List.mem_of_find?_eq_some he, rfl⟩
      split
      · exact .refl
      · split
        · exact .refl
        · cases r.kind with
          | accept => exact moves_ackAccept s c _ heard hc' ho
          | decline => exact moves_ackDecline s c _ hc'
          | onScene => exact moves_ackOnScene s c _ heard hc' ho
          | done => exact moves_ackDone s c _ hc'

theorem moves_takeAck (s : State) (st : Nat) (r : AckRecord) : Moves s (s.takeAck st r) := by
  unfold State.takeAck
  dsimp only
  have h := (calm_seePager s r.pager ⟨st, r.quality, r.heard s.clock⟩).moves
  generalize s.seePager r.pager ⟨st, r.quality, r.heard s.clock⟩ = u at h ⊢
  refine h.trans ?_
  split
  · exact .refl
  · next h =>
    refine (calm_setAcks u _ fun hu => enterAck_sound hu fun x hx => ?_).moves.trans (moves_matchAck _ r _)
    simp only [List.any_eq_true, not_exists, not_and, Bool.not_eq_true] at h
    exact h x hx

end Sys2Proof.Machine
end

section
/-!
SUPPORT. The moves of the station line, of the requests and of the start-up load, and with them the run that each
command is.
-/

namespace Sys2Proof.Machine

/-! ### The station line (chapter 7) -/

theorem calm_armDue (s : State) (st : Nat) : Calm s (s.armDue st) := by
  unfold State.armDue
  dsimp only
  split <;> exact calm_putStation s st _ (by rfl)

theorem calm_dropFollowUp (s : State) (st : Nat) : Calm s (s.dropFollowUp st) := calm_setLine s _ rfl
theorem calm_addFollowUp (s : State) (st : Nat) : Calm s (s.addFollowUp st) := calm_setLine s _ rfl
theorem calm_voidExchange (s : State) (st : Nat) : Calm s (s.voidExchange st) := calm_setLine s _ rfl

/-- A station record replaced and posted, its stored values kept. -/
theorem moves_changeStation (s : State) (st : Nat) (x : Station) (h : x.stored = (s.station st).stored) :
    Moves s (s.changeStation st x) :=
  (calm_putStation s st x h).moves.trans (moves_post _ (.station st) fun _ => nofun)

theorem moves_goSilent (s : State) (st m : Nat) : Moves s (s.goSilent st m) :=
  (((moves_changeStation s st _ (by rfl)).trans (calm_dropFollowUp _ st).moves).trans
    (calm_voidExchange _ st).moves).trans (moves_flush _ st)

theorem moves_recordMiss (s : State) (st : Nat) : Moves s (s.recordMiss st) := by
  have reachable : Moves s (if s.store.params.missLimit ≤ (s.station st).misses + 1 then
      s.goSilent st ((s.station st).misses + 1) else s.changeStation st
        { s.station st with service := .suspect, misses := (s.station st).misses + 1 }) := by
    split
    · exact moves_goSilent s st _
    · exact moves_changeStation s st _ (by rfl)
  unfold State.recordMiss
  dsimp only
  split
  · exact reachable
  · exact reachable
  · exact .refl
  · exact .refl

theorem moves_recordAnswer (s : State) (st : Nat) : Moves s (s.recordAnswer st) := by
  have reachable : Moves s (if (s.station st).service = .inService ∧ (s.station st).misses = 0 then s else
      (s.changeStation st { s.station st with service := .inService, misses := 0 }).arbitrate
        (s.station st).group) := by
    split
    · exact .refl
    · exact (moves_changeStation s st _ (by rfl)).trans (moves_arbitrate _ _)
  unfold State.recordAnswer
  dsimp only
  split
  · exact reachable
  · exact reachable
  · exact .refl
  · exact .refl

theorem moves_handOnward (st : Nat) (r : FloorRecord) (s : State) : Moves s (State.handOnward st r s) := by
  cases r with
  | ack q a => exact moves_takeAck s st a
  | press q i => exact moves_press s st i

theorem moves_judgeRecord (st : Nat) (r : FloorRecord) (s : State) : Moves s (State.judgeRecord st r s) := by
  unfold State.judgeRecord
  dsimp only
  split
  · exact (calm_putStation s st _ (by rfl)).moves.trans (moves_handOnward st r _)
  · exact .refl

theorem moves_takeRecords (s : State) (st : Nat) (resync : Bool) (newest : Byte) (records : List FloorRecord) :
    Moves s (s.takeRecords st resync newest records) := by
  unfold State.takeRecords
  split
  · exact (Moves.forEach _ _ (moves_handOnward st) s).trans (calm_putStation _ st _ (by rfl)).moves
  · exact Moves.forEach _ _ (moves_judgeRecord st) s

theorem moves_pollAnswered (s : State) (x : Exchange) (busy more : Bool) (newest : Byte)
    (records : List FloorRecord) : Moves s (s.pollAnswered x busy more newest records) := by
  have reachable : Moves s
      ((if more then (((s.recordAnswer x.station).transmitterSeen x.station busy).takeRecords x.station x.resync
          newest records).addFollowUp x.station
        else ((s.recordAnswer x.station).transmitterSeen x.station busy).takeRecords x.station x.resync
          newest records).armDue x.station) := by
    have h := ((moves_recordAnswer s x.station).trans (moves_transmitterSeen _ x.station busy)).trans
      (moves_takeRecords _ x.station x.resync newest records)
    refine Relation.ReflTransGen.trans ?_ (calm_armDue _ x.station).moves
    split
    · exact h.trans (calm_addFollowUp _ _).moves
    · exact h
  unfold State.pollAnswered
  dsimp only
  split
  · exact reachable
  · exact reachable
  · exact ((((moves_changeStation s x.station _ (by rfl)).trans (moves_arbitrate _ _)).trans
      (moves_transmitterSeen _ _ busy)).trans (calm_addFollowUp _ _).moves).trans (calm_armDue _ _).moves
  · exact .refl

theorem moves_burstAnswered (s : State) (x : Exchange) (taken : Bool) : Moves s (s.burstAnswered x taken) := by
  unfold State.burstAnswered
  dsimp only
  split
  · exact moves_recordAnswer s _
  · split
    · exact (moves_recordAnswer s _).trans (moves_burstTaken _ _)
    · exact (moves_recordAnswer s _).trans (moves_burstFailed _ _)

theorem moves_noReply (s : State) (x : Exchange) : Moves s (s.noReply x) := by
  unfold State.noReply
  split
  · exact (moves_recordMiss s _).trans (calm_armDue _ _).moves
  · refine Relation.ReflTransGen.trans ?_ (moves_recordMiss _ _)
    split
    · exact .refl
    · exact moves_burstFailed s _

theorem moves_endExchange (s : State) (x : Exchange) (reply : Option ValidReply) :
    Moves s (s.endExchange x reply) := by
  have h := (calm_setLine s { s.line with exchange := none } rfl).moves
  unfold State.endExchange
  dsimp only
  split
  · exact h
  · split
    · exact h.trans (moves_noReply _ x)
    · exact h.trans (moves_pollAnswered _ x _ _ _ _)
    · exact h.trans (moves_burstAnswered _ x _)

theorem moves_receiveReply (s : State) (cs : List Char9) : Moves s (s.receiveReply cs) := by
  unfold State.receiveReply
  split
  · exact .refl
  · split
    · exact .refl
    · exact moves_endExchange s _ _
    · exact moves_endExchange s _ _

theorem moves_airtimeOver (s : State) (st : Nat) : Moves s (s.airtimeOver st) :=
  (((moves_releaseGrant s st).trans (moves_setWaitIdle _ st true)).trans (moves_arbitrate _ _)).trans
    (moves_recordMiss _ st)

theorem moves_beginPoll (s : State) (st : Nat) : Moves s (s.beginPoll st) :=
  ((calm_putStation s st _ (by rfl)).moves.trans (calm_dropFollowUp _ st).moves).trans (calm_setLine _ _ (by rfl)).moves

theorem moves_beginBurst (s : State) (st : Nat) : Moves s (s.beginBurst st) := by
  have h := (calm_setLine s { s.line with burstWaits := s.line.burstWaits.filter (fun x => decide (x ≠ st)) }
    rfl).moves
  unfold State.beginBurst
  dsimp only
  split
  · exact (h.trans (moves_releaseGrant _ st)).trans (moves_arbitrate _ _)
  · exact (h.trans (moves_formBurst _ st)).trans (calm_setLine _ _ (by rfl)).moves

/-! ### Texts, parameters and values in range -/

theorem textInRange_cleanText (n : Nat) (x : Text) : textInRange n (cleanText n x) = true := by
  simp only [textInRange, cleanText, Bool.and_eq_true, decide_eq_true_eq, List.all_eq_true, List.mem_map]
  refine ⟨by simp, ?_⟩
  rintro _ ⟨b, -, rfl⟩
  split
  · assumption
  · decide

theorem clamp_range (lo hi x : Nat) (h : lo ≤ hi) : lo ≤ clamp lo hi x ∧ clamp lo hi x ≤ hi := by
  unfold clamp
  split
  · omega
  · split <;> omega

theorem within_iff (lo hi n : Nat) : within lo hi n = true ↔ lo ≤ n ∧ n ≤ hi := by simp [within]

theorem within_pick (sel : Bool) (lo hi given inUse : Nat) (h : lo ≤ hi) (hu : within lo hi inUse = true) :
    within lo hi (pick sel lo hi given inUse) = true := by
  unfold pick
  split
  · exact (within_iff _ _ _).mpr (clamp_range lo hi given h)
  · exact hu

theorem pickPattern_inRange (sel : Bool) (given inUse : Pattern) (hu : inUse.inRange = true) :
    (pickPattern sel given inUse).inRange = true := by
  unfold pickPattern
  split
  · have h := clamp_range 2 32 given.period (by omega)
    simp only [Pattern.inRange, Bool.and_eq_true, within_iff]
    exact ⟨h, clamp_range 1 _ given.onTime (by omega)⟩
  · exact hu

theorem listedRate_listed (n : Nat) : listedRate (listedRate n) = listedRate n := by
  have h : ∀ r ∈ [115200, 57600, 38400, 19200, 9600], listedRate r = r := by decide
  refine h _ ?_
  unfold listedRate
  repeat' split
  all_goals simp

/-- A SET_PARAMS leaves every parameter in its range (R182, R183). -/
theorem ParamsOperands.apply_inRange (o : ParamsOperands) (u : Params) (h : u.inRange = true) :
    (o.apply u).inRange = true := by
  simp only [Params.inRange, Bool.and_eq_true, decide_eq_true_eq] at h ⊢
  obtain ⟨⟨⟨⟨⟨⟨⟨⟨⟨⟨⟨⟨⟨⟨⟨h1, h2⟩, h3⟩, h4⟩, h5⟩, h6⟩, h7⟩, h8⟩, h9⟩, h10⟩, h11⟩, h12⟩, h13⟩, h14⟩, h15⟩, h16⟩ := h
  refine ⟨⟨⟨⟨⟨⟨⟨⟨⟨⟨⟨⟨⟨⟨⟨?_, ?_⟩, ?_⟩, ?_⟩, ?_⟩, ?_⟩, ?_⟩, ?_⟩, ?_⟩, ?_⟩, ?_⟩, ?_⟩, ?_⟩, ?_⟩, ?_⟩, ?_⟩
  · exact within_pick _ 1 16 _ _ (by decide) h1
  · exact within_pick _ 1 16 _ _ (by decide) h2
  · exact within_pick _ 1 16 _ _ (by decide) h3
  · exact within_pick _ 1 16 _ _ (by decide) h4
  · exact within_pick _ 30 3600 _ _ (by decide) h5
  · exact within_pick _ 2 60 _ _ (by decide) h6
  · exact within_pick _ 5 300 _ _ (by decide) h7
  · exact within_pick _ 2 16 _ _ (by decide) h8
  · exact within_pick _ 16 120 _ _ (by decide) h9
  · exact within_pick _ 1 4 _ _ (by decide) h10
  · exact within_pick _ 2 8 _ _ (by decide) h11
  · exact pickPattern_inRange _ _ _ h12
  · exact pickPattern_inRange _ _ _ h13
  · exact pickPattern_inRange _ _ _ h14
  · exact pickPattern_inRange _ _ _ h15
  · dsimp only [ParamsOperands.apply]
    split
    · exact listedRate_listed _
    · exact h16

theorem beaconInRange_optRef {n : Nat} (h : within 0 8 n = true) : beaconInRange (optRef n) = true := by
  rw [within_iff] at h
  unfold optRef
  split
  · rfl
  · exact (within_iff _ _ _).mpr (by omega)

theorem StepOperands.stepKind_inRange {o : StepOperands} {k : StepKind} (h : o.stepKind = some k) :
    k.inRange = true := by
  have guarded : ∀ {b : Bool} {x : StepKind}, (x.inRange = b) → (if b = true then some x else none) = some k →
      k.inRange = true := by
    intro b x hx hk
    split at hk
    · next hb => cases hk; exact hx.trans hb
    · cases hk
  unfold StepOperands.stepKind at h
  split at h
  · exact guarded (x := .crew o.operand) rfl h
  · split at h
    · exact guarded (x := .poolOne o.operand) rfl h
    · split at h
      · exact guarded (x := .poolAll o.operand) rfl h
      · split at h
        · cases h; rfl
        · split at h
          · cases h; rfl
          · cases h

theorem StepOperands.toStep_inRange {o : StepOperands} {x : LadderStep} (h : o.toStep = some x) :
    x.inRange = true := by
  unfold StepOperands.toStep at h
  split at h
  · cases h
  · next k hk =>
    split at h
    · next hb =>
      cases h
      simp only [LadderStep.inRange, Bool.and_eq_true]
      exact ⟨⟨⟨StepOperands.stepKind_inRange hk, (within_iff _ _ _).mpr (clamp_range 5 900 _ (by decide))⟩,
        (within_iff _ _ _).mpr (clamp_range 0 7 _ (by decide))⟩, beaconInRange_optRef hb⟩
    · cases h

theorem toSteps_inRange {os : List StepOperands} {xs : List LadderStep} (h : toSteps os = some xs) :
    xs.length = os.length ∧ ∀ x ∈ xs, x.inRange = true := by
  induction os generalizing xs with
  | nil => cases h; simp
  | cons o os ih =>
    unfold toSteps at h
    split at h
    · next x ys hx hys =>
      cases h
      obtain ⟨hl, hr⟩ := ih hys
      exact ⟨by simp [hl], List.forall_mem_cons.mpr ⟨StepOperands.toStep_inRange hx, hr⟩⟩
    · cases h

/-- A ladder that SET_LADDER takes is in range (R45 to R48). -/
theorem LadderOperands.toLadder_inRange {o : LadderOperands} {l : Ladder} (h : o.toLadder = some l) :
    l.inRange = true := by
  unfold LadderOperands.toLadder at h
  split at h
  · cases h
  · next hb =>
    simp only [Bool.or_eq_true, Bool.not_eq_true', not_or, Bool.not_eq_false] at hb
    obtain ⟨⟨⟨-, hn⟩, hr⟩, he⟩ := hb
    split at h
    · cases h
    · next xs hxs =>
      cases h
      obtain ⟨hl, hx⟩ := toSteps_inRange hxs
      simp only [Ladder.inRange, Bool.and_eq_true, List.all_eq_true]
      exact ⟨⟨⟨⟨hl ▸ hn, hx⟩, (within_iff _ _ _).mpr (clamp_range 30 900 _ (by decide))⟩, hr⟩,
        beaconInRange_optRef he⟩

/-- The crew record that a SET_CREW gives is one a SET_CREW may make (R32, R33). -/
theorem crewChange_apply (s : State) (o : CrewOperands) (hv : o.valid = true)
    (hm : ¬ (selected o.selection.toNat 3 = true ∧ o.members.any (fun m => s.carriedElsewhere o.crew m) = true)) :
    CrewChange s o.crew (o.apply (s.crew o.crew)) := by
  simp only [CrewOperands.valid, Bool.and_eq_true, Bool.or_eq_true, Bool.not_eq_true'] at hv
  obtain ⟨⟨⟨⟨⟨hc, -⟩, -⟩, hhome⟩, hmem⟩, -⟩ := hv
  refine ⟨(within_iff _ _ _).mp hc, fun h => ?_, rfl, ?_⟩
  · simp only [StoredCrew.inRange, Crew.stored, CrewOperands.apply, Bool.and_eq_true] at h ⊢
    obtain ⟨⟨⟨⟨⟨hn, hl⟩, hw⟩, hd⟩, hh⟩, -⟩ := h
    refine ⟨⟨⟨⟨⟨?_, ?_⟩, ?_⟩, ?_⟩, ?_⟩, rfl⟩
    · split
      · exact textInRange_cleanText 12 _
      · exact hn
    all_goals split
    · next hs => simp only [hs, Bool.true_eq_false, false_or] at hmem; exact hmem.1.1
    · exact hl
    · next hs => simp only [hs, Bool.true_eq_false, false_or] at hmem; exact hmem.1.2
    · exact hw
    · next hs => simp only [hs, Bool.true_eq_false, false_or] at hmem; exact hmem.2
    · exact hd
    · next hs => simp only [hs, Bool.true_eq_false, false_or] at hhome; exact hhome
    · exact hh
  · cases hs : selected o.selection.toNat 3 with
    | false => left; simp [CrewOperands.apply, hs]
    | true =>
      right
      simp only [hs, Bool.true_eq_false, false_or, distinct, decide_eq_true_eq] at hmem
      simp only [hs, true_and, List.any_eq_true, not_exists, not_and, Bool.not_eq_true] at hm
      simpa [CrewOperands.apply, hs] using ⟨hmem.2, hm⟩

/-- An undefined crew is one that SET_CREW may leave, when it has no accepted calls (R32, R33). -/
theorem crewChange_undefined (s : State) (c : Nat) (hc : within 1 48 c = true)
    (ha : (s.crew c).accepted = []) : CrewChange s c .undefined :=
  ⟨(within_iff _ _ _).mp hc, fun _ => by decide, ha.symm, .inr ⟨List.nodup_nil, by simp [Crew.undefined]⟩⟩

/-! ### The tables and the stations -/

/-- A crew record that changes, with its members' directory entries and the posting (R26, R29). -/
theorem replaceCrew_eq (s : State) (c : Nat) (x : Crew) :
    s.replaceCrew c x = s ∨ s.replaceCrew c x = ((s.setRegistry { s.registry with
      directory := updateDirectory c (s.crew c).members x.members s.registry.directory }).putCrew c x).post
        (.crew c) := by
  unfold State.replaceCrew
  dsimp only
  split
  · exact .inl rfl
  · exact .inr rfl

theorem quiet_replaceCrew (s : State) (c : Nat) (x : Crew) (h : CrewChange s c x) :
    Quiet s (s.replaceCrew c x) := by
  rcases replaceCrew_eq s c x with e | e <;> rw [e]
  · exact ⟨rfl, rfl, fun _ => rfl, id, fun _ h => h⟩
  · refine ⟨by simp, by simp, fun k => ?_, by simp [State.post_link], fun f => by simp [State.post_link]⟩
    rw [State.post_crew, State.putCrew_crew_eq]
    split
    · next hk => rw [h.accepted, hk.1]
    · rfl

theorem moves_replaceCrew (s : State) (c : Nat) (x : Crew) (h : CrewChange s c x) : Moves s (s.replaceCrew c x) :=
  (Move.other (Prim.crew s c x h).one (quiet_replaceCrew s c x h)).one

theorem moves_putStation (s : State) (st : Nat) (x : Station)
    (h : (s.station st).stored.inRange st = true → x.stored.inRange st = true) : Moves s (s.putStation st x) :=
  (Move.other (Prim.station s st x h).one ⟨rfl, rfl, fun _ => rfl, id, fun _ h => h⟩).one

theorem settingOf_setting {n : Nat} {v : Service} (h : settingOf n = some v) :
    v = .inService ∨ v = .outOfService := by
  unfold settingOf at h
  split at h
  · cases h; exact .inl rfl
  · split at h
    · cases h; exact .inr rfl
    · cases h

/-- The stored values of a DEFINE are in range (R99, R138). -/
theorem storedStation_inRange {st g : Nat} {v : Service} {ns : List Nat} (hg : within 1 4 g = true)
    (hv : v = .inService ∨ v = .outOfService) (hn : neighboursAllowed st ns = true) :
    StoredStation.inRange st ⟨true, g, v, ns⟩ = true := by
  simp [StoredStation.inRange, hg, hv, hn]

theorem moves_enterService (s : State) (st : Nat) : Moves s (s.enterService st) :=
  (calm_putStation s st _ (by rfl)).moves.trans (moves_arbitrate _ _)

theorem moves_leaveService (s : State) (st : Nat) : Moves s (s.leaveService st) :=
  (((calm_putStation s st _ (by rfl)).moves.trans (calm_dropFollowUp _ st).moves).trans
    (calm_voidExchange _ st).moves).trans (moves_flush _ st)

theorem moves_defineStation (s : State) (st g : Nat) (v : Service) (ns : List Nat) (hg : within 1 4 g = true)
    (hv : v = .inService ∨ v = .outOfService) (hn : neighboursAllowed st ns = true) :
    Moves s (s.defineStation st g v ns) := by
  have h := (moves_putStation s st ⟨true, g, v, .outOfService, 0, none, false, 0#8, true, ns⟩
    fun _ => storedStation_inRange hg hv hn).trans (moves_post _ (.station st) fun _ => nofun)
  unfold State.defineStation
  dsimp only
  split
  · exact h.trans (moves_enterService _ st)
  · exact h

/-- A station whose channel group changes, its other stored values in range. -/
theorem inRange_regroup {st g : Nat} {x : Station} (hd : x.defined = true) (hg : within 1 4 g = true)
    (h : x.stored.inRange st = true) : (Station.stored { x with group := g }).inRange st = true := by
  simp only [StoredStation.inRange, Station.stored, Bool.and_eq_true] at h ⊢
  obtain ⟨⟨⟨-, hs⟩, hn⟩, -⟩ := h
  exact ⟨⟨⟨hg, hs⟩, hn⟩, by simp [hd]⟩

theorem Engine.station {own : Nat → Prop} {s t : State} (e : Engine own s t) (st : Nat) :
    t.station st = s.station st := by
  unfold State.station
  rw [e.frame.line]

theorem moves_changeGroup (s : State) (st g : Nat) (hd : (s.station st).defined = true)
    (hg : within 1 4 g = true) : Moves s (s.changeGroup st g) := by
  unfold State.changeGroup
  dsimp only
  split
  · exact .refl
  · refine Relation.ReflTransGen.trans ?_ ((moves_arbitrate _ _).trans (moves_arbitrate _ _))
    have hr : (s.releaseGrant st).station st = s.station st := (engine_releaseGrant (own := noCall) s st).station st
    split
    · refine (((moves_releaseGrant s st).trans (moves_returnItems _ st)).trans
        (calm_setLine _ _ (by rfl)).moves).trans (moves_putStation _ st _ (inRange_regroup ?_ hg))
      exact (congrArg Station.defined hr).trans hd
    · refine (moves_releaseGrant s st).trans (moves_putStation _ st _ (inRange_regroup ?_ hg))
      exact (congrArg Station.defined hr).trans hd

theorem moves_redefineStation (s : State) (st g : Nat) (v : Service) (ns : List Nat)
    (hst : within 1 12 st = true) (hd : (s.station st).defined = true) (hg : within 1 4 g = true)
    (hv : v = .inService ∨ v = .outOfService) (hn : neighboursAllowed st ns = true) :
    Moves s (s.redefineStation st g v ns) := by
  unfold State.redefineStation
  dsimp only
  generalize Station.reported _ = a
  have h1 : Moves s (if a = (s.station st).reported then s else s.post (.station st)) := by
    split
    · exact .refl
    · exact moves_post s _ fun _ => nofun
  have h2 : (if a = (s.station st).reported then s else s.post (.station st)).station st = s.station st := by
    split <;> simp
  generalize (if a = (s.station st).reported then s else s.post (.station st)) = u at h1 h2 ⊢
  have h3 : Moves s ((u.putStation st { s.station st with setting := v, neighbours := ns }).changeGroup st g) := by
    refine (h1.trans (moves_putStation u st _ fun h => ?_)).trans (moves_changeGroup _ st g ?_ hg)
    · rw [h2] at h
      simp only [StoredStation.inRange, Station.stored, Bool.and_eq_true] at h ⊢
      obtain ⟨⟨⟨hgr, -⟩, -⟩, -⟩ := h
      exact ⟨⟨⟨hgr, decide_eq_true hv⟩, hn⟩, by simp [hd]⟩
    · rw [State.putStation_station_eq, if_pos ⟨rfl, (within_iff _ _ _).mp hst⟩]
      exact hd
  generalize (u.putStation st { s.station st with setting := v, neighbours := ns }).changeGroup st g = w at h3 ⊢
  split
  · exact h3.trans (moves_leaveService w st)
  · split
    · exact h3.trans (moves_enterService w st)
    · exact h3

theorem moves_removeStation (s : State) (st : Nat) : Moves s (s.removeStation st) :=
  ((moves_post s (.station st) fun _ => nofun).trans (moves_leaveService _ st)).trans
    (moves_putStation _ st _ fun _ => by simp [StoredStation.inRange, Station.stored, Station.undefined,
      neighboursAllowed, allWithin, distinct, within])

/-! ### The requests -/

/-- The state that a request leaves is reached by moves. -/
def Served (s : State) (a : Answer) : Prop := Moves s a.2.2

theorem served_withOperands {α : Type} (s : State) (o : Option α) (f : α → Answer)
    (h : ∀ x, o = some x → Served s (f x)) : Served s (s.withOperands o f) := by
  cases o with
  | none => exact .refl
  | some x => exact h x rfl

theorem served_unlessSaving (s : State) (a : Answer) (h : Served s a) : Served s (s.unlessSaving a) := by
  unfold State.unlessSaving
  split
  · exact .refl
  · exact h

theorem served_onOpenCall (s : State) (n : Nat) (f : Call → Answer)
    (h : ∀ c, s.findCall n = some c → c.state ≠ .closed → Served s (f c)) : Served s (s.onOpenCall n f) := by
  unfold State.onOpenCall
  split
  · exact .refl
  · split
    · exact .refl
    · next c hc =>
      split
      · exact .refl
      · next hs => exact h c hc hs

theorem served_raise (p : List Byte) (s : State) (hs : s.link.state ≠ .starting) : Served s (reqRaise p s) := by
  refine served_withOperands _ _ _ fun o _ => ?_
  split
  · exact .refl
  · split
    · exact .refl
    · split
      · exact .refl
      · next u hu => exact (Move.raise s u _ _ hu hs _ _ _ _ rfl).one

theorem served_close (s : State) (r : CloseReason) (p : List Byte) (contents : Nat → List Byte) :
    Served s (s.withOperands (readTwo p) fun n =>
      s.onOpenCall n fun _ => (s.closeCall r n).answer (contents n)) :=
  served_withOperands _ _ _ fun n _ => served_onOpenCall _ _ _ fun c hc hs => by
    have hn := State.findCall_number hc
    subst hn
    exact (Move.close s r c hc hs).one

theorem served_advance (p : List Byte) (s : State) : Served s (reqAdvance p s) :=
  served_withOperands _ _ _ fun n _ => served_onOpenCall _ _ _ fun c hc _ => by
    split
    · next hp => exact moves_advanceCall s n (State.pagingAt_of_found hc hp)
    · exact .refl

theorem served_direct (p : List Byte) (s : State) : Served s (reqDirect p s) :=
  served_withOperands _ _ _ fun o _ => served_onOpenCall _ _ _ fun c hc hs => by
    split
    · exact .refl
    · split
      · exact .refl
      · split
        · exact .refl
        · next ha =>
          have hw : c.state = .paging ∨ c.state = .exhausted := by
            cases hcs : c.state <;> simp_all
          exact (acts_directStep s _ _ _ _).moves (engine_directStep s _ _ _ _ c hc hw)

theorem served_callpoint (p : List Byte) (s : State) (hs : s.link.state ≠ .starting) :
    Served s (reqSetCallpoint p s) := by
  refine served_withOperands _ _ _ fun o _ => served_unlessSaving _ _ ?_
  split
  · unfold State.callpointDefine
    split
    · exact .refl
    · next cls _ =>
      split
      · exact .refl
      · next hr =>
        simp only [Bool.or_eq_true, Bool.not_eq_true', not_or, Bool.not_eq_false] at hr
        obtain ⟨⟨h1, h2⟩, h3⟩ := hr
        split
        · exact .refl
        · next hroom =>
          refine (Move.define s _ _ _ cls _ hs ?_ fun hf => ?_).one
          · simp [StoredPoint.inRange, h1, h2, h3, textInRange_cleanText]
          · exact Nat.lt_of_not_le fun hle => hroom ⟨hf, hle⟩
  · split
    · unfold State.callpointRemove
      split
      · exact .refl
      · split
        · exact .refl
        · next p hp =>
          obtain ⟨h1, h2⟩ := State.findPoint_key hp
          rw [← h1, ← h2] at hp ⊢
          split
          · exact .refl
          · next hst => exact (Move.undefine s p hp (by simp [hst])).one
          · next hst => exact (Move.undefine s p hp (by simp [hst])).one
    · exact .refl

theorem served_crew (p : List Byte) (s : State) : Served s (reqSetCrew p s) := by
  refine served_withOperands _ _ _ fun o _ => served_unlessSaving _ _ ?_
  dsimp only
  split
  · exact .refl
  · next hv =>
    simp only [Bool.not_eq_true', Bool.not_eq_false] at hv
    split
    · exact .refl
    · split
      · split
        · exact .refl
        · next ha =>
          refine moves_replaceCrew s _ _ (crewChange_undefined s _ ?_ (by simpa using ha))
          simp only [CrewOperands.valid, Bool.and_eq_true] at hv
          exact hv.1.1.1.1.1
      · split
        · exact .refl
        · next hm => exact moves_replaceCrew s _ _ (crewChange_apply s o hv hm)

theorem served_pool (p : List Byte) (s : State) : Served s (reqSetPool p s) := by
  refine served_withOperands _ _ _ fun o _ => served_unlessSaving _ _ ?_
  split
  · exact .refl
  · next h =>
    simp only [Bool.or_eq_true, Bool.not_eq_true', not_or, Bool.not_eq_false] at h
    obtain ⟨⟨⟨-, h1⟩, h2⟩, h3⟩ := h
    exact (Move.pool s o.1 o.2 (by simp only [poolInRange, h1, h2, h3, Bool.and_self])).one

theorem served_ladder (p : List Byte) (s : State) : Served s (reqSetLadder p s) := by
  refine served_withOperands _ _ _ fun o _ => served_unlessSaving _ _ ?_
  split
  · exact .refl
  · next l hl =>
    exact (Move.other (Prim.ladder s o.ladder l (LadderOperands.toLadder_inRange hl)).one
      ⟨rfl, rfl, fun _ => rfl, id, fun _ h => h⟩).one

theorem served_station (p : List Byte) (s : State) : Served s (reqSetStation p s) := by
  refine served_withOperands _ _ _ fun o _ => served_unlessSaving _ _ ?_
  split
  · unfold State.stationDefine
    split
    · exact .refl
    · next v hv =>
      split
      · exact .refl
      · next hr =>
        simp only [Bool.or_eq_true, Bool.not_eq_true', not_or, Bool.not_eq_false] at hr
        obtain ⟨⟨h1, h2⟩, h3⟩ := hr
        split
        · next hd => exact moves_redefineStation s _ _ v _ h1 hd h2 (settingOf_setting hv) h3
        · exact moves_defineStation s _ _ v _ h2 (settingOf_setting hv) h3
  · split
    · unfold State.stationRemove
      split
      · exact .refl
      · split
        · exact .refl
        · exact moves_removeStation s _
    · exact .refl

theorem served_hold (p : List Byte) (s : State) : Served s (reqBeaconHold p s) := by
  refine served_withOperands _ _ _ fun o _ => ?_
  split
  · unfold State.beaconHold
    split
    · exact .refl
    · split
      · exact moves_setHold s _ _
      · exact .refl
  · split
    · unfold State.beaconRelease
      split
      · exact moves_setHold s _ _
      · exact .refl
    · exact .refl

theorem served_beacon (p : List Byte) (s : State) : Served s (reqSetBeacon p s) := by
  refine served_withOperands _ _ _ fun o _ => served_unlessSaving _ _ ?_
  split
  · exact .refl
  · split
    · exact .refl
    · split
      · exact .refl
      · exact (calm_setBeacons s _).moves

theorem calm_armSilence (s : State) : Calm s s.armSilence :=
  calm_setLink s _ rfl rfl (fun _ h => h) id

theorem moves_useParams (s : State) (p : Params) (h : s.store.params.inRange = true → p.inRange = true) :
    Moves s (s.useParams p) := by
  have h1 : Moves s (s.setStore { s.store with params := p }) :=
    (Move.other (Prim.params s p h).one ⟨rfl, rfl, fun _ => rfl, id, fun _ h => h⟩).one
  have h2 := h1.trans (Moves.forEach (List.range' 1 8) (State.restartIfChanged s.store.params.pattern)
    (moves_restartIfChanged _) _)
  unfold State.useParams
  dsimp only
  split
  · exact h2.trans (calm_armSilence _).moves
  · exact h2

theorem served_params (p : List Byte) (s : State) : Served s (reqSetParams p s) :=
  served_withOperands _ _ _ fun o _ => served_unlessSaving _ _ (moves_useParams s _ (o.apply_inRange _))

theorem served_store (p : List Byte) (s : State) : Served s (reqStore p s) :=
  served_withOperands _ _ _ fun _ _ => served_unlessSaving _ _
    ((calm_setStore s _ (by rfl)).moves.trans (moves_post _ .part fun _ => nofun))

theorem served_reset (p : List Byte) (s : State) : Served s (reqReset p s) :=
  served_withOperands _ _ _ fun _ _ => (calm_setLink s { s.link with resetPending := true } rfl rfl
    (fun _ h => h) id).moves

theorem served_queries (s : State) (p : List Byte) :
    Served s (reqQueryCall p s) ∧ Served s (reqQueryCrew p s) ∧ Served s (reqQueryPool p s) ∧
    Served s (reqQueryPager p s) ∧ Served s (reqQueryLadder p s) ∧ Served s (reqQueryQueue p s) ∧
    Served s (reqQueryStation p s) := by
  refine ⟨?_, ?_, ?_, ?_, ?_, ?_, ?_⟩
  all_goals refine served_withOperands _ _ _ fun _ _ => ?_
  all_goals repeat' split
  all_goals exact .refl

/-- Whatever a valid frame asks for, the state it leaves is reached by moves. -/
theorem served_serve (kind : Byte) (p : List Byte) (s : State) (hs : s.link.state ≠ .starting) :
    Served s (serve kind p s) := by
  obtain ⟨q1, q2, q3, q4, q5, q6, q7⟩ := served_queries s p
  have plain : ∀ (o : Option Unit) (f : List Byte), Served s (s.withOperands o fun _ => s.answer f) :=
    fun o f => served_withOperands _ _ _ fun _ _ => .refl
  unfold serve
  split
  · exact served_raise p s hs
  · exact served_close s .cleared p _
  · exact served_close s .cancelled p _
  · exact q1
  · exact plain _ _
  · exact served_callpoint p s hs
  · exact served_crew p s
  · exact served_pool p s
  · exact q2
  · exact q3
  · exact q4
  · exact served_ladder p s
  · exact q5
  · exact served_advance p s
  · exact served_direct p s
  · exact plain _ _
  · exact q6
  · exact served_station p s
  · exact q7
  · exact served_hold p s
  · exact plain _ _
  · exact served_beacon p s
  · exact served_params p s
  · exact served_store p s
  · exact plain _ _
  · exact served_reset p s
  · exact .refl

end Sys2Proof.Machine
end

section
/-!
SUPPORT. Every command but a reset is a run of moves, each event of which ends with the start of what is ready (R169).
-/

namespace Sys2Proof.Machine

/-! ### The frames of requests -/

theorem moves_heardHost (s : State) : Moves s s.heardHost := by
  unfold State.heardHost
  split
  · exact ((calm_setLink s { s.link with state := .online } rfl rfl (fun _ h => h) nofun).moves.trans
      (calm_armSilence _).moves).trans (moves_post _ .part fun _ => nofun)
  · exact (calm_armSilence s).moves

theorem heardHost_state (s : State) (h : s.link.state ≠ .starting) : s.heardHost.link.state ≠ .starting := by
  rw [heardHost_eq s h]; nofun

theorem heardHost_replies (s : State) : s.heardHost.link.replies = s.link.replies := by
  unfold State.heardHost
  split <;> simp [State.post_link, State.armSilence]

theorem run_takeFrame (f : RxFrame) (s : State) : Run s (State.takeFrame f s) := by
  unfold State.takeFrame State.actOnFrame
  split
  · exact .event (.refl s) .refl
  · next hs =>
    dsimp only
    split
    · exact .event (.refl s) (moves_heardHost s)
    · next hroom =>
      split
      · exact .event (.refl s) (moves_heardHost s)
      · refine .reply (.refl s) ((moves_heardHost s).trans
          (served_serve f.kind f.payload _ (heardHost_state s hs))) ?_ _
        rw [heardHost_replies] at hroom
        exact Nat.lt_of_not_le hroom

theorem run_setRx (s : State) (r : Receiver) : Run s (s.setLink { s.link with rx := r }) :=
  .still (.refl s) (calm_setLink s { s.link with rx := r } rfl rfl (fun _ h => h) id).moves
    ⟨rfl, rfl, rfl, rfl, rfl⟩

theorem run_receiveChars (s : State) (cs : List Byte) : Run s (s.receiveChars cs) := by
  unfold State.receiveChars
  split
  · exact .refl s
  · exact (run_setRx s _).trans (Run.forEach _ _ run_takeFrame _)

theorem run_dropFrame (s : State) : Run s s.dropFrame := run_setRx s _

/-! ### The outbound path and the start-up load -/

/-- A chain that only moves the grants and the waiting BURST exchanges makes nothing ready. -/
theorem sameOutbound_of_link {s t : State} (h : t.link = s.link) : SameOutbound s t := by
  constructor <;> rw [h]

@[simp] theorem State.arbitrate_link (s : State) (g : Nat) : (s.arbitrate g).link = s.link := by
  unfold State.arbitrate
  dsimp only
  split
  · rfl
  · split
    · rfl
    · split
      · rfl
      · split <;> rfl

@[simp] theorem State.releaseGrant_link (s : State) (st : Nat) : (s.releaseGrant st).link = s.link := by
  unfold State.releaseGrant
  dsimp only
  split <;> rfl

theorem beginBurst_link (s : State) (st : Nat) : (s.beginBurst st).link = s.link := by
  unfold State.beginBurst
  dsimp only
  split
  · rw [State.arbitrate_link, State.releaseGrant_link]; rfl
  · rfl

/-- The default tables are consistent (R181). -/
theorem defaults_consistent : Image.defaults.consistent = true := by decide +kernel

/-- The tables a load installs are consistent, whatever it read (R180). -/
theorem load_consistent (found : EepromRead) (e : Eeprom) : (e.load found).2.consistent = true := by
  unfold Eeprom.load
  split
  · split <;> exact defaults_consistent
  · exact defaults_consistent
  · split
    · split
      · assumption
      · exact defaults_consistent
    · exact defaults_consistent
    · exact defaults_consistent

theorem moves_endStore (s : State) (r : StoreResult) (e : Eeprom) : Moves s (s.endStore r e) :=
  (calm_setStore s _ (by rfl)).moves.trans (moves_post _ .part fun _ => nofun)

/-! ### Every command -/

/-- A reset of every block, which leaves the waiting commands (R179). -/
def ResetFrom (s t : State) : Prop := ∃ cause e low, t = State.afterReset cause s.pending e low

/-- The outcome of a command: a run, or a reset. -/
def Does (s : State) (o : Host.Outcome State Fault Refusal) : Prop := ∃ t, o = .next t ∧ (Run s t ∨ ResetFrom s t)

theorem does_run {s t : State} (h : Run s t) : Does s (.next t) := ⟨t, rfl, .inl h⟩
theorem does_event {s t : State} (m : Moves s t) : Does s (.next t.sendReady) := does_run (.event (.refl s) m)
theorem does_still {s t : State} (m : Moves s t) (h : t.link = s.link) : Does s (.next t) :=
  does_run (.still (.refl s) m (sameOutbound_of_link h))
theorem does_nothing (s : State) : Does s (.next s) := does_run (.refl s)
theorem does_frame (s : State) (k t : Byte) (p : List Byte) : Does s (.next (s.receiveFrame k t p)) :=
  does_run (run_receiveChars s _)

theorem does_reset {s t : State} (h : ResetFrom s t) : Does s (.next t) := ⟨t, rfl, .inr h⟩

theorem does_startUpLoadEnd (found : EepromRead) (s : State) : Does s (execStartUpLoadEnd found s) := by
  unfold execStartUpLoadEnd
  split
  · next h => exact does_event (Move.load s _ _ h.1 (load_consistent found _)).one
  · exact does_nothing s

theorem does_repeatExpiry (n : Nat) (s : State) : Does s (execRepeatExpiry n s) := by
  unfold execRepeatExpiry
  split
  · exact does_nothing s
  · next c hc =>
    split
    · next h =>
      have hp := State.pagingAt_of_found hc h.1
      rw [← State.findCall_number hc] at hp
      exact does_event ((acts_sendRepeat s c).moves (engine_sendRepeat s c hp))
    · exact does_nothing s

theorem does_stepDeadlineExpiry (n : Nat) (s : State) : Does s (execStepDeadlineExpiry n s) := by
  unfold execStepDeadlineExpiry
  split
  · exact does_nothing s
  · next c hc =>
    split
    · next h => exact does_event (moves_advanceCall s n (State.pagingAt_of_found hc h.1))
    · exact does_nothing s

theorem does_arrivalExpiry (n : Nat) (s : State) : Does s (execArrivalExpiry n s) := by
  unfold execArrivalExpiry
  split
  · exact does_nothing s
  · next c hc =>
    have hn := State.findCall_number hc
    subst hn
    split
    · next h =>
      exact does_event ((Move.release s c hc h.1).one.trans
        (moves_advanceCall _ _ (pagingAt_releaseCrew s c)))
    · exact does_nothing s

theorem does_silenceTimerExpiry (s : State) : Does s (execSilenceTimerExpiry s) := by
  unfold execSilenceTimerExpiry
  split
  · exact does_event (((calm_setLink s { s.link with state := .local, silence := none } rfl rfl
      (fun _ h => h) nofun).moves.trans (moves_post _ .part fun _ => nofun)).trans (moves_advanceAllReferred _))
  · exact does_nothing s

/-- The end of a frame frees the record of the CLOSED call whose notice it was, if it was one (R7). -/
theorem freeSent_eq (s : State) (f : Frame) :
    (f.frees = none ∧ s.freeSent f = s) ∨ ∃ n, f.frees = some n ∧ s.freeSent f = s.without n := by
  unfold State.freeSent
  cases h : f.frees with
  | none => exact .inl ⟨rfl, rfl⟩
  | some n => exact .inr ⟨n, rfl, rfl⟩

theorem freeSent_pending (s : State) (f : Frame) : (s.freeSent f).pending = s.pending := by
  rcases freeSent_eq s f with ⟨-, h⟩ | ⟨n, -, h⟩ <;> rw [h]
  rfl

theorem does_frameSent (h : Bool) (s : State) : Does s (execFrameSent h s) := by
  unfold execFrameSent
  split
  · exact does_event (calm_setLink s { s.link with hcts := h } rfl rfl (fun _ h => h) id).moves
  · next f hf =>
    dsimp only
    split
    · refine does_reset ⟨.request, _, _, (congrArg (fun p => State.afterReset .request p _ _) ?_)⟩
      exact freeSent_pending _ f
    · exact does_event (Move.sent s f h hf).one

theorem does_pollExchangeBegin (s : State) : Does s (execPollExchangeBegin s) := by
  unfold execPollExchangeBegin
  split
  · exact does_still (moves_beginPoll s _) rfl
  · exact does_nothing s

theorem does_burstExchangeBegin (s : State) : Does s (execBurstExchangeBegin s) := by
  unfold execBurstExchangeBegin
  split
  · exact does_still (moves_beginBurst s _) (beginBurst_link s _)
  · exact does_nothing s

theorem does_beaconTick (z : Nat) (s : State) : Does s (.next (s.beaconTick z)) := by
  refine does_still (calm_beaconTick s z).moves ?_
  unfold State.beaconTick
  dsimp only
  split <;> rfl

/-- Every command of the table is a run of moves or a reset. -/
theorem exec_does (i : Instr) (s : State) : Does s (exec i s) := by
  cases i with
  | powerOn => exact does_reset ⟨_, _, _, rfl⟩
  | rstnLow =>
    show Does s (execRstnLow s)
    unfold execRstnLow
    split
    · exact does_nothing s
    · exact does_reset ⟨_, _, _, rfl⟩
  | rstnHigh =>
    show Does s (execRstnHigh s)
    unfold execRstnHigh
    split
    · exact does_reset ⟨_, _, _, rfl⟩
    · exact does_nothing s
  | startUpLoadEnd found => exact does_startUpLoadEnd found s
  | siteClockTick =>
    show Does s (execSiteClockTick s)
    unfold execSiteClockTick
    split
    · exact does_nothing s
    · exact does_still (calm_setClock s _).moves rfl
  | repeatExpiry n => exact does_repeatExpiry n s
  | stepDeadlineExpiry n => exact does_stepDeadlineExpiry n s
  | arrivalExpiry n => exact does_arrivalExpiry n s
  | dedupeEntryExpiry =>
    exact does_still (calm_setAcks s _ fun h =>
      ⟨(List.length_filter_le _ _).trans h.1, h.2.sublist List.filter_sublist⟩).moves rfl
  | locationExpiry =>
    refine does_still (calm_directory s _ ?_).moves rfl
    rw [List.map_map]
    exact List.map_congr_left fun e _ => ageLocation_key s.clock e
  | airtimeDeadlineExpiry st =>
    show Does s (execAirtimeDeadlineExpiry st s)
    unfold execAirtimeDeadlineExpiry
    split
    · exact does_event (moves_airtimeOver s st)
    · exact does_nothing s
  | pollDue st =>
    show Does s (execPollDue st s)
    unfold execPollDue
    split
    · exact does_still (calm_putStation s st _ (by rfl)).moves rfl
    · exact does_nothing s
  | beaconPeriodEnd z =>
    show Does s (execBeaconPeriodEnd z s)
    unfold execBeaconPeriodEnd
    split
    · exact does_nothing s
    · split
      · exact does_beaconTick z s
      · exact does_nothing s
  | beaconOnTimeEnd z =>
    show Does s (execBeaconOnTimeEnd z s)
    unfold execBeaconOnTimeEnd
    split
    · exact does_nothing s
    · split
      · exact does_beaconTick z s
      · exact does_nothing s
  | silenceTimerExpiry => exact does_silenceTimerExpiry s
  | frameBadCheck | wrongLength => exact does_run (run_receiveChars s _)
  | frameGap | lineBreak | characterError => exact does_run ((run_receiveChars s _).trans (run_dropFrame _))
  | hctsAsserted =>
    exact does_event (calm_setLink s { s.link with hcts := true } rfl rfl (fun _ h => h) id).moves
  | frameSent h => exact does_frameSent h s
  | storeComplete =>
    show Does s (execStoreComplete s)
    unfold execStoreComplete
    split
    · exact does_event (moves_endStore s _ _)
    · exact does_nothing s
  | storeFailed =>
    show Does s (execStoreFailed s)
    unfold execStoreFailed
    split
    · exact does_event (moves_endStore s _ _)
    · exact does_nothing s
  | pollExchangeBegin => exact does_pollExchangeBegin s
  | burstExchangeBegin => exact does_burstExchangeBegin s
  | replyWindowExpiry =>
    show Does s (execReplyWindowExpiry s)
    unfold execReplyWindowExpiry
    split
    · exact does_nothing s
    · exact does_event (moves_endExchange s _ none)
  | replyGapAbandon =>
    show Does s (execReplyGapAbandon s)
    unfold execReplyGapAbandon
    split
    · exact does_nothing s
    · exact does_event (moves_endExchange s _ none)
  | malformedReplyStart cs =>
    show Does s (execMalformedReplyStart cs s)
    unfold execMalformedReplyStart
    split
    · exact does_nothing s
    · split
      · exact does_event (moves_endExchange s _ none)
      · exact does_nothing s
  | pollReply cs | burstReply cs => exact does_event (moves_receiveReply s cs)
  | _ => exact does_frame s _ _ _

/-- A step is a run of moves or a reset. -/
theorem step_does {s t : State} (h : step s = .next t) : Run s t ∨ ResetFrom (s.setPending s.pending.tail) t := by
  unfold step at h
  split at h
  · cases h; exact .inl (.refl s)
  · next c rest hp =>
    have hs : ({ s with pending := rest } : State) = s.setPending s.pending.tail := by rw [hp]; rfl
    rw [hs] at h
    obtain ⟨u, hu, hr⟩ := exec_does c (s.setPending s.pending.tail)
    rw [hu] at h
    cases h
    have h0 : Run s (s.setPending s.pending.tail) :=
      .still (.refl s) (calm_setPending s s.pending.tail).moves ⟨rfl, rfl, rfl, rfl, rfl⟩
    exact hr.imp_left h0.trans

end Sys2Proof.Machine
end

section
/-!
SUPPORT. The call book's records and points after each of its operations, and every move as a chain of small changes.
-/

namespace Sys2Proof.Machine

/-! ### Which calls and points there are -/

theorem State.findCall_ne_none_iff (s : State) (n : Nat) :
    s.findCall n ≠ none ↔ ∃ c ∈ s.book.calls, c.number = n := by
  unfold State.findCall
  rw [Ne, List.find?_eq_none]
  simp

theorem insertCall_perm (c : Call) (cs : List Call) : (insertCall c cs).Perm (c :: cs) := by
  induction cs with
  | nil => exact .refl _
  | cons x xs ih =>
    unfold insertCall
    split
    · exact .refl _
    · exact (ih.cons x).trans (.swap c x xs)

theorem mem_insertCall {c x : Call} {cs : List Call} : x ∈ insertCall c cs ↔ x = c ∨ x ∈ cs := by
  rw [(insertCall_perm c cs).mem_iff, List.mem_cons]

/-- A point's state alone is written. -/
theorem pointsInRange_map {ps : List CallPoint} (f : CallPoint → CallPoint) (hs : ∀ p, (f p).stored = p.stored)
    (h : pointsInRange ps) : pointsInRange (ps.map f) := by
  obtain ⟨hr, hl, hk⟩ := h
  refine ⟨?_, by simpa using hl, ?_⟩
  · intro q hq
    obtain ⟨p, hp, rfl⟩ := List.mem_map.mp hq
    rw [hs]; exact hr p hp
  · have : (fun p : CallPoint => (p.station, p.input)) ∘ f = fun p => (p.station, p.input) := by
      funext p
      have := hs p
      simp only [CallPoint.stored, StoredPoint.mk.injEq] at this
      simp [this.1, this.2.1]
    rwa [List.map_map, this]

/-- Only the closing order, the counter, the presses or the states of points are written. -/
theorem prim_setBook (s : State) (b : CallBook) (hc : b.calls = s.book.calls)
    (hp : pointsInRange s.book.points → pointsInRange b.points) : Prim s (s.setBook b) :=
  .book s b (fun n h => by rw [State.findCall_ne_none_iff] at h ⊢; rwa [State.setBook_book, hc]) hp

theorem prim_setPoint (s : State) (st i : Nat) (x : PointState) : Prim s (s.setPoint st i x) :=
  prim_setBook s _ rfl (pointsInRange_map _ fun p => by split <;> rfl)

theorem State.setPoint_findCall (s : State) (st i : Nat) (x : PointState) (n : Nat) :
    (s.setPoint st i x).findCall n = s.findCall n := rfl

/-! ### Raising -/

/-- A slot is obtained as it is, or by the eviction of the record that closed earliest (R5). -/
theorem obtainSlot_cases {s u : State} (h : s.obtainSlot = some u) :
    (s.book.calls.length < Config.maxCalls ∧ u = s) ∨
      ∃ n rest, ¬ s.book.calls.length < Config.maxCalls ∧ s.book.closedOrder = n :: rest ∧ u = s.without n := by
  unfold State.obtainSlot at h
  split at h
  · next hl => exact .inl ⟨hl, (Option.some.inj h).symm⟩
  · next hl =>
    split at h
    · cases h
    · next n rest ho => exact .inr ⟨n, rest, hl, ho, (Option.some.inj h).symm⟩

/-- No slot is to be had in a full book of open calls (R5). -/
theorem obtainSlot_eq_none {s : State} (h : s.obtainSlot = none) :
    ¬ s.book.calls.length < Config.maxCalls ∧ s.book.closedOrder = [] := by
  unfold State.obtainSlot at h
  split at h
  · cases h
  · next hl =>
    split at h
    · next ho => exact ⟨hl, ho⟩
    · cases h

theorem prims_obtainSlot {s u : State} (h : s.obtainSlot = some u) : Prims s u := by
  rcases obtainSlot_cases h with ⟨-, rfl⟩ | ⟨n, _, -, -, rfl⟩
  · exact .refl
  · exact (Prim.remove s n).one

/-- The book with a record added. -/
def CallBook.add (b : CallBook) (c : Call) : CallBook :=
  { b with calls := insertCall c b.calls, counter := c.number }

theorem addCall_eq (s : State) (c : Call) : s.addCall c = (s.setBook (s.book.add c)).post (.call c.number) := rfl

theorem prims_addCall (s : State) (c : Call) : Prims s (s.addCall c) := by
  rw [addCall_eq]
  refine (Prim.book s (s.book.add c) (fun n h => ?_) id).one.tail (.note _ _ fun n e => ?_)
  · rw [State.findCall_ne_none_iff] at h ⊢
    obtain ⟨x, hx, hn⟩ := h
    exact ⟨x, mem_insertCall.mpr (.inr hx), hn⟩
  · cases e
    rw [State.findCall_ne_none_iff]
    exact ⟨c, mem_insertCall.mpr (.inl rfl), rfl⟩

theorem raiseFromPoint_eq (s : State) (p : CallPoint) :
    s.raiseFromPoint p = ((s.addCall (s.pressCall p)).setPoint p.station p.input
      (.opened s.book.nextNumber)).startCall s.book.nextNumber none := rfl

theorem prims_raiseFromPoint (s : State) (p : CallPoint) : Prims s (s.raiseFromPoint p) := by
  rw [raiseFromPoint_eq]
  exact ((prims_addCall s _).tail (prim_setPoint _ _ _ _)).trans (acts_startCall _ _ _).prims

/-! ### Closing -/

theorem prim_calm {s t : State} (h : Calm s t) : Prim s t := .calm h

theorem prims_changeCrew (s : State) (c : Nat) (l : List Nat)
    (h : (s.crew c).accepted.length ≤ Config.maxAccepted → l.length ≤ Config.maxAccepted) :
    Prims s (s.changeCrew c { s.crew c with accepted := l }) :=
  (Prim.accepted s c l h).one.tail (.note _ (.crew c) fun _ => nofun)

theorem prims_leaveCrew (s : State) (n crew : Nat) : Prims s (s.leaveCrew n crew) :=
  prims_changeCrew s crew _ fun h => (List.length_filter_le _ _).trans h

/-- The crew that has taken a call, if there is one, loses it (R31). -/
def State.leaveCrew? (s : State) (n : Nat) : Option Nat → State
  | none => s
  | some a => s.leaveCrew n a

theorem prims_leaveCrew? (s : State) (n : Nat) (a : Option Nat) : Prims s (s.leaveCrew? n a) := by
  cases a with
  | none => exact .refl
  | some a => exact prims_leaveCrew s n a

/-- The pages of a call are withdrawn and its close notes sent (R20). -/
def State.sendCloseNotes (s : State) (r : CloseReason) (c : Call) : State :=
  (s.withdrawPages c.number).sendToCrews (closeNote r c) (notedCrews r c)

/-- The record of a call is closed, and stands last in the closing order (R5, R20). -/
def State.markClosed (s : State) (r : CloseReason) (n : Nat) : State :=
  (s.changeCall n fun c => c.closedFor r s.clock).setBook
    { (s.changeCall n fun c => c.closedFor r s.clock).book with
      closedOrder := (s.changeCall n fun c => c.closedFor r s.clock).book.closedOrder ++ [n] }

theorem closeRecord_eq (s : State) (r : CloseReason) (c : Call) :
    s.closeRecord r c = ((s.sendCloseNotes r c).leaveCrew? c.number c.accepting).markClosed r c.number := by
  unfold State.closeRecord
  cases c.accepting <;> rfl

theorem prims_sendCloseNotes (s : State) (r : CloseReason) (c : Call) : Prims s (s.sendCloseNotes r c) :=
  (Act.withdraw s c.number).one.prims.trans (acts_sendToCrews _ _ _).prims

theorem prims_markClosed (s : State) (r : CloseReason) (n : Nat) : Prims s (s.markClosed r n) :=
  (Prim.change s n (fun c => c.closedFor r s.clock) fun _ => rfl).one.tail (prim_setBook _ _ rfl id)

theorem prims_settlePoint (s : State) (c : Call) : Prims s (s.settlePoint c) := by
  unfold State.settlePoint
  split
  · exact .refl
  · split
    · exact .refl
    · split
      · exact (prim_setPoint s _ _ _).one
      · exact .refl

/-- The CLOSED record that closed earliest is evicted, if there is one (R17). -/
def State.evictOldest (s : State) : State :=
  match s.book.closedOrder with
  | [] => s
  | n :: _ => s.without n

/-- The press at the head of the list is taken off it, in the slot it is to be raised in (R17). -/
def State.takePress (s : State) (rest : List (Nat × Nat)) : State :=
  s.evictOldest.setBook { s.evictOldest.book with pendingPresses := rest }

theorem servePending_nil (s : State) (h : s.book.pendingPresses = []) : s.servePending = s := by
  unfold State.servePending; rw [h]

theorem servePending_cons (s : State) (key : Nat × Nat) (rest : List (Nat × Nat))
    (h : s.book.pendingPresses = key :: rest) :
    s.servePending = match (s.takePress rest).findPoint key.1 key.2 with
      | none => s.takePress rest
      | some p => (s.takePress rest).raiseFromPoint p := by
  unfold State.servePending
  rw [h]
  rfl

theorem prims_takePress (s : State) (rest : List (Nat × Nat)) : Prims s (s.takePress rest) := by
  have h : Prims s s.evictOldest := by
    unfold State.evictOldest
    split
    · exact .refl
    · exact (Prim.remove s _).one
  exact h.tail (prim_setBook _ _ rfl id)

theorem prims_servePending (s : State) : Prims s s.servePending := by
  cases h : s.book.pendingPresses with
  | nil => rw [servePending_nil s h]
  | cons key rest =>
    rw [servePending_cons s key rest h]
    split
    · exact prims_takePress s rest
    · exact (prims_takePress s rest).trans (prims_raiseFromPoint _ _)

theorem closeCall_eq (s : State) (r : CloseReason) (n : Nat) (c : Call) (h : s.findCall n = some c) :
    s.closeCall r n = ((s.closeRecord r c).settlePoint c).servePending := by
  unfold State.closeCall; rw [h]

theorem prims_closeCall (s : State) (r : CloseReason) (n : Nat) : Prims s (s.closeCall r n) := by
  cases h : s.findCall n with
  | none => unfold State.closeCall; rw [h]
  | some c =>
    rw [closeCall_eq s r n c h, closeRecord_eq]
    exact ((((prims_sendCloseNotes s r c).trans (prims_leaveCrew? _ _ _)).trans (prims_markClosed _ r _)).trans
      (prims_settlePoint _ c)).trans (prims_servePending _)

/-! ### Accepting and releasing -/

theorem prims_acceptRecord (s : State) (c : Call) (crew : Nat) (heard : Tick) (hr : s.hasRoom crew = true) :
    Prims s (s.acceptRecord c crew heard) := by
  refine (Prim.change s c.number (Call.acceptedBy crew heard s.clock s.arrivalWindow) fun _ => rfl).one.trans ?_
  have h := prims_changeCrew (s.changeCall c.number (Call.acceptedBy crew heard s.clock s.arrivalWindow)) crew
    ((s.crew crew).accepted ++ [c.number]) fun _ => by
      have : (s.crew crew).accepted.length < Config.maxAccepted := by simpa [State.hasRoom] using hr
      rw [List.length_append, List.length_singleton]
      omega
  rwa [State.changeCall_crew] at h

theorem prims_acceptCall (s : State) (c : Call) (crew : Nat) (heard : Tick) (hr : s.hasRoom crew = true) :
    Prims s (s.acceptCall c crew heard) := by
  rw [acceptCall_eq]
  exact (prims_acceptRecord s c crew heard hr).trans
    ((Act.withdraw _ c.number).one.prims.trans (acts_sendToCrews _ _ _).prims)

/-- The record of a call whose crew did not arrive (R71). -/
def Call.released (c : Call) : Call := { c with arrivalDeadline := none, accepting := none, state := .paging }

theorem releaseCrew_eq (s : State) (c : Call) :
    s.releaseCrew c = (s.changeCall c.number Call.released).leaveCrew? c.number c.accepting := by
  unfold State.releaseCrew
  cases c.accepting <;> rfl

theorem prims_releaseCrew (s : State) (c : Call) : Prims s (s.releaseCrew c) := by
  rw [releaseCrew_eq]
  exact (Prim.change s c.number Call.released fun _ => rfl).one.trans (prims_leaveCrew? _ _ _)

/-! ### The call-point table and the load -/

/-- The entry with new values and its state kept (R12). -/
def CallPoint.revalued (st i l : Nat) (cls : Cls) (text : Text) (p : CallPoint) : CallPoint :=
  if p.station = st ∧ p.input = i then { p with ladder := l, cls := cls, text := text } else p

theorem definePoint_new (s : State) (st i l : Nat) (cls : Cls) (text : Text) (h : s.findPoint st i = none) :
    s.definePoint st i l cls text =
      s.setBook { s.book with points := s.book.points ++ [⟨st, i, l, cls, text, .idle⟩] } := by
  unfold State.definePoint; rw [h]

theorem definePoint_known (s : State) (st i l : Nat) (cls : Cls) (text : Text) (p : CallPoint)
    (h : s.findPoint st i = some p) : s.definePoint st i l cls text =
      s.setBook { s.book with points := s.book.points.map (CallPoint.revalued st i l cls text) } := by
  unfold State.definePoint; rw [h]; rfl

theorem State.findPoint_eq_none {s : State} {st i : Nat} (h : s.findPoint st i = none) :
    ∀ p ∈ s.book.points, ¬ (p.station = st ∧ p.input = i) := by
  unfold State.findPoint at h
  rw [List.find?_eq_none] at h
  simpa using h

theorem revalued_key (st i l : Nat) (cls : Cls) (text : Text) :
    (fun p : CallPoint => (p.station, p.input)) ∘ CallPoint.revalued st i l cls text =
      fun p => (p.station, p.input) := by
  funext p
  simp only [Function.comp_apply, CallPoint.revalued]
  split <;> rfl

theorem prim_definePoint (s : State) (st i l : Nat) (cls : Cls) (text : Text)
    (hr : StoredPoint.inRange ⟨st, i, l, cls, text⟩ = true)
    (room : s.findPoint st i = none → s.book.points.length < Config.maxPoints) :
    Prim s (s.definePoint st i l cls text) := by
  cases h : s.findPoint st i with
  | none =>
    rw [definePoint_new s st i l cls text h]
    refine prim_setBook s _ rfl fun ⟨h1, _, h3⟩ => ⟨?_, ?_, ?_⟩
    · intro p hp
      rcases List.mem_append.mp hp with hp | hp
      · exact h1 p hp
      · rw [List.mem_singleton.mp hp]; exact hr
    · simpa using room h
    · rw [List.map_append, List.nodup_append]
      refine ⟨h3, List.nodup_singleton _, ?_⟩
      rintro _ ha _ hb rfl
      obtain ⟨p, hp, hk⟩ := List.mem_map.mp ha
      simp only [List.map_cons, List.map_nil, List.mem_singleton] at hb
      rw [hb] at hk
      exact State.findPoint_eq_none h p hp (Prod.mk.inj hk)
  | some p =>
    rw [definePoint_known s st i l cls text p h]
    refine prim_setBook s _ rfl fun ⟨h1, h2, h3⟩ => ⟨?_, by simpa using h2, ?_⟩
    · intro q hq
      obtain ⟨x, hx, rfl⟩ := List.mem_map.mp hq
      unfold CallPoint.revalued
      split
      · next hk => rw [← hk.1, ← hk.2] at hr; exact hr
      · exact h1 x hx
    · rwa [List.map_map, revalued_key]

theorem prim_removePoint (s : State) (st i : Nat) : Prim s (s.removePoint st i) := by
  refine prim_setBook s _ rfl fun ⟨h1, h2, h3⟩ => ⟨fun p hp => h1 p (List.mem_of_mem_filter hp), ?_, ?_⟩
  · exact (List.length_filter_le _ _).trans h2
  · exact h3.sublist (List.filter_sublist.map _)

theorem prims_enterOnline (s : State) : Prims s s.enterOnline :=
  ((prim_calm (calm_setLink s { s.link with state := .online } rfl rfl (fun _ h => h) nofun)).one.tail
    (prim_calm (calm_armSilence _))).tail (.note _ .part fun _ => nofun)

theorem prims_sent (s : State) (f : Frame) (h : Bool) :
    Prims s ((s.setLink { s.link with sending := none, hcts := h }).freeSent f) := by
  have h0 : Prims s (s.setLink { s.link with sending := none, hcts := h }) :=
    (prim_calm (calm_setLink s { s.link with sending := none, hcts := h } rfl rfl nofun id)).one
  rcases freeSent_eq (s.setLink { s.link with sending := none, hcts := h }) f with ⟨-, e⟩ | ⟨n, -, e⟩
  · rwa [e]
  · rw [e]; exact h0.tail (Prim.remove _ n)

/-! ### Every move -/

/-- Every operation taken whole is a chain of small changes. -/
theorem Move.prims {s t : State} (m : Move s t) : Prims s t := by
  cases m with
  | other p _ => exact p
  | escalate a _ => exact a.prims
  | pool p l h => exact (Prim.pool s p l h).one
  | raise u c pref slot _ _ _ _ _ _ =>
    exact ((prims_obtainSlot slot).trans (prims_addCall u c)).trans (acts_startCall _ _ _).prims
  | press u p slot _ _ => exact (prims_obtainSlot slot).trans (prims_raiseFromPoint u p)
  | pressWaits p _ _ _ => exact (prim_setPoint s _ _ _).one.tail (prim_setBook _ _ rfl id)
  | pressed n p _ _ => exact (Prim.change s n Call.pressed fun _ => rfl).one
  | close r c _ _ => exact prims_closeCall s r _
  | accept c crew heard _ _ room _ => exact prims_acceptCall s c crew heard room
  | release c _ _ => exact prims_releaseCrew s c
  | define st i l cls text _ inRange room => exact (prim_definePoint s st i l cls text inRange room).one
  | undefine p _ _ => exact (prim_removePoint s _ _).one
  | load img r _ consistent =>
    exact ((Prim.install s img consistent).one.tail (prim_calm (calm_setStore _ _ (by rfl)))).trans
      (prims_enterOnline _)
  | sent f h _ => exact prims_sent s f h

theorem Moves.prims {s t : State} (m : Moves s t) : Prims s t := by
  induction m with
  | refl => exact .refl
  | tail _ h ih => exact ih.trans h.prims

end Sys2Proof.Machine
end

section
/-!
SUPPORT. What every small change keeps: the page queues sound, the notice list and the reply queue sound, the
recent-acknowledgement list sound (R76, R109, R170).
-/

namespace Sys2Proof.Machine

/-! ### The page queues -/

theorem State.withdrawPages_queue (s : State) (n st : Nat) :
    (s.withdrawPages n).queue st = (s.queue st).withdraw n :=
  row_map (StationQueue.withdraw n) s.sched.queues st .empty

theorem Act.queues {s t : State} (a : Act s t) (h : s.QueuesSound) : t.QueuesSound := by
  intro st
  cases a with
  | change n f _ => rw [State.changeCall_queue]; exact h st
  | pointer p k => exact h st
  | queue st' q hq =>
    rw [State.putQueue_queue_eq]
    split
    · exact hq (h st')
    · exact h st
  | withdraw n => rw [State.withdrawPages_queue]; exact (h st).withdraw n
  | grants g b => exact h st
  | bursts l => exact h st

theorem queues_of_sched {s t : State} (h : s.QueuesSound) (e : t.sched = s.sched) : t.QueuesSound := by
  intro st
  unfold State.queue
  rw [e]
  exact h st

@[simp] theorem State.replaceCrew_sched (s : State) (c : Nat) (x : Crew) : (s.replaceCrew c x).sched = s.sched := by
  rcases replaceCrew_eq s c x with e | e <;> simp [e]

/-- Every small change keeps the page queues sound (R109). -/
theorem Prim.queues {s t : State} (p : Prim s t) (h : s.QueuesSound) : t.QueuesSound := by
  cases p with
  | act a => exact a.queues h
  | calm c => exact queues_of_sched h c.sched
  | note k _ => exact queues_of_sched h (by simp)
  | change n f _ => exact queues_of_sched h (by simp)
  | crew c x _ => exact queues_of_sched h (by simp)
  | _ => exact queues_of_sched h rfl

/-! ### The notice list and the reply queue -/

/-- The notice list and the reply queue are sound: all that `State.LinkSound` says but for what must have started. -/
structure State.LinkOk (s : State) : Prop where
  notices : s.link.notices.Nodup
  listed : ∀ n, .call n ∈ s.link.notices → s.findCall n ≠ none
  replies : s.link.replies.length ≤ Config.maxReplies

theorem State.LinkOk.congr {s t : State} (h : s.LinkOk) (hn : t.link.notices = s.link.notices)
    (hr : t.link.replies = s.link.replies) (hc : ∀ n, s.findCall n ≠ none → t.findCall n ≠ none) : t.LinkOk where
  notices := hn ▸ h.notices
  listed := fun n hm => hc n (h.listed n (hn ▸ hm))
  replies := hr ▸ h.replies

theorem State.LinkOk.post {s : State} (h : s.LinkOk) (k : NoticeKey)
    (hk : ∀ n, k = .call n → s.findCall n ≠ none) : (s.post k).LinkOk where
  notices := State.post_notices_nodup s k h.notices
  listed := fun n hm => by
    rw [State.post_findCall]
    rw [State.notices_post] at hm
    split at hm
    · exact h.listed n hm
    · rcases List.mem_append.mp hm with hm | hm
      · exact h.listed n hm
      · exact hk n (List.mem_singleton.mp hm).symm
  replies := by rw [State.post_link]; exact h.replies

/-- A change of a call posts one that the book holds. -/
theorem State.LinkOk.changeCall {s : State} (h : s.LinkOk) (n : Nat) (f : Call → Call)
    (_ : ∀ c, (f c).number = c.number) : (s.changeCall n f).LinkOk := by
  unfold State.changeCall
  cases hc : s.findCall n with
  | none => exact h
  | some c =>
    have keep : ∀ m, s.findCall m ≠ none → (s.putCall c (f c)).findCall m ≠ none := fun m hm => by
      rw [State.putCall_findCall]; simpa using hm
    refine (h.congr (by simp) (by simp) keep).post _ fun m e => keep m ?_
    cases e
    rw [hc]
    nofun

theorem Act.linkOk {s t : State} (a : Act s t) (h : s.LinkOk) : t.LinkOk := by
  cases a with
  | change n f hf => exact h.changeCall n f fun c => (hf c).same.number
  | withdraw n => exact h.congr rfl rfl fun _ h => h
  | _ => exact h.congr rfl rfl fun _ h => h

/-- The calls that stay when one is taken out. -/
theorem State.without_findCall (s : State) (m n : Nat) :
    (s.without m).findCall n = if n = m then none else s.findCall n := by
  show (s.book.calls.filter _).find? _ = if n = m then none else s.book.calls.find? _
  rw [List.find?_filter]
  split
  · next e => subst e; rw [List.find?_eq_none]; simp
  · next e =>
    congr 1
    funext c
    by_cases hc : c.number = n
    · simp [hc, e]
    · simp [hc]

theorem State.LinkOk.without {s : State} (h : s.LinkOk) (m : Nat) : (s.without m).LinkOk where
  notices := h.notices.sublist List.filter_sublist
  listed := fun n hn => by
    obtain ⟨hn, hne⟩ := List.mem_filter.mp hn
    rw [State.without_findCall, if_neg (by simpa using hne)]
    exact h.listed n hn
  replies := h.replies

/-- Every small change keeps the notice list and the reply queue sound (R6, R166, R170). -/
theorem Prim.linkOk {s t : State} (p : Prim s t) (h : s.LinkOk) : t.LinkOk := by
  cases p with
  | act a => exact a.linkOk h
  | calm c => exact h.congr c.notices c.replies fun n hn => by unfold State.findCall at *; rwa [c.book]
  | note k hk => exact h.post k hk
  | change n f hf => exact h.changeCall n f hf
  | book b hl _ => exact h.congr rfl rfl hl
  | remove n => exact h.without n
  | crew c x _ =>
    rcases replaceCrew_eq s c x with e | e <;> rw [e]
    · exact h
    · refine State.LinkOk.post ?_ _ fun _ e => nomatch e
      exact h.congr rfl rfl fun _ h => h
  | _ => exact h.congr rfl rfl fun _ h => h

theorem Act.replies {s t : State} (a : Act s t) : t.link.replies = s.link.replies := by
  cases a with
  | change n f _ =>
    unfold State.changeCall
    split
    · rfl
    · rw [State.post_link, State.putCall_link]
  | _ => rfl

/-- No small change touches the reply queue. -/
theorem Prim.replies {s t : State} (p : Prim s t) : t.link.replies = s.link.replies := by
  cases p with
  | act a => exact a.replies
  | calm c => exact c.replies
  | note k _ => rw [State.post_link]
  | change n f _ =>
    unfold State.changeCall
    split
    · rfl
    · rw [State.post_link, State.putCall_link]
  | crew c x _ => rcases replaceCrew_eq s c x with e | e <;> simp [e, State.post_link]
  | _ => rfl

theorem Prims.replies {s t : State} (p : Prims s t) : t.link.replies = s.link.replies := by
  induction p with
  | refl => rfl
  | tail _ h ih => exact h.replies.trans ih

/-! ### The recent-acknowledgement list -/

theorem Act.acks {s t : State} (a : Act s t) : t.acks = s.acks := by
  cases a with
  | change n f _ => simp
  | _ => rfl

/-- Every small change keeps the recent-acknowledgement list sound (R76). -/
theorem Prim.acksOk {s t : State} (p : Prim s t) (h : s.acksOk) : t.acksOk := by
  have of_eq : t.acks = s.acks → t.acksOk := fun e => by unfold State.acksOk; rw [e]; exact h
  cases p with
  | act a => exact of_eq a.acks
  | calm c => exact c.acks h
  | note k _ => exact of_eq (by simp)
  | change n f _ => exact of_eq (by simp)
  | crew c x _ =>
    rcases replaceCrew_eq s c x with e | e
    · exact of_eq (by rw [e])
    · exact of_eq (by rw [e]; simp)
  | _ => exact of_eq rfl

/-! ### Runs -/

/-- What every small change keeps, a chain of them keeps. -/
theorem Prims.keeps {P : State → Prop} (prim : ∀ {s t}, Prim s t → P s → P t) {s t : State} (p : Prims s t)
    (h : P s) : P t := by
  induction p with
  | refl => exact h
  | tail _ k ih => exact prim k ih

/-- What every small change keeps, and the link's own part in an event too, a run keeps. -/
theorem Run.keeps {P : State → Prop} (prim : ∀ {s t}, Prim s t → P s → P t)
    (link : ∀ s (f : Option Frame) rs ks, P s →
      P (s.setLink { s.link with sending := f, replies := rs, notices := ks })) {s t : State} (r : Run s t)
    (h : P s) : P t := by
  have ready : ∀ s : State, P s → P s.sendReady := fun s h => by
    obtain ⟨f, rs, ks, e⟩ := s.sendReady_link
    rw [e]; exact link s f rs ks h
  induction r with
  | refl => exact h
  | still _ m _ ih => exact m.prims.keeps prim ih
  | event _ m ih => exact ready _ (m.prims.keeps prim ih)
  | @reply t u _ m _ x ih => exact ready _ (link u u.link.sending _ u.link.notices (m.prims.keeps prim ih))

/-- A run keeps the page queues sound (R109). -/
theorem Run.queues {s t : State} (r : Run s t) (h : s.QueuesSound) : t.QueuesSound :=
  r.keeps Prim.queues (fun _ _ _ _ h => queues_of_sched h rfl) h

/-- A run keeps the recent-acknowledgement list sound (R76). -/
theorem Run.acksOk {s t : State} (r : Run s t) (h : s.acksOk) : t.acksOk :=
  r.keeps Prim.acksOk (fun _ _ _ _ h => h) h

/-! ### What must have started -/

theorem State.LinkSound.ok {s : State} (h : s.LinkSound) : s.LinkOk := ⟨h.notices, h.listed, h.replies⟩

/-- A listed record gives a notice (R171). -/
theorem State.LinkOk.noticeFrame {s : State} (h : s.LinkOk) (k : NoticeKey) (hk : k ∈ s.link.notices) :
    s.noticeFrame k ≠ none := by
  cases k with
  | call n =>
    have := h.listed n hk
    unfold State.noticeFrame
    dsimp only
    split
    · contradiction
    · nofun
  | _ => nofun

theorem State.LinkOk.startFrame {s : State} (h : s.LinkOk) : s.startFrame.LinkOk := by
  rcases s.startFrame_cases with ⟨-, e⟩ | ⟨-, -, ⟨r, rest, hr, e⟩ | ⟨k, ks, -, hn, e⟩⟩
  · rwa [e]
  · rw [e]
    refine ⟨h.notices, h.listed, ?_⟩
    have hl := h.replies
    rw [hr] at hl
    simp only [State.startReply, State.setLink_link]
    split
    · exact (Nat.le_succ _).trans hl
    · exact hl
  · rw [e]
    have hnd := h.notices
    rw [hn] at hnd
    exact ⟨hnd.of_cons, fun n hm => h.listed n (hn ▸ List.mem_cons_of_mem _ hm), h.replies⟩

/-- An event leaves nothing ready that could have started (R169). -/
theorem State.LinkOk.sendReady {s : State} (h : s.LinkOk) : s.sendReady.LinkSound := by
  have hok : s.sendReady.LinkOk := by
    unfold State.sendReady
    split
    · exact h.startFrame
    · exact h
  refine ⟨hok.notices, hok.listed, hok.replies, fun hh hs hf => ?_⟩
  rw [State.sendReady_hcts] at hh
  rw [State.sendReady_linkState] at hs
  obtain ⟨e, hr, hn⟩ := s.sendReady_eager h.noticeFrame hh hs hf
  rw [e]
  exact ⟨hr, hn⟩

/-- A run keeps the host link sound (R6, R166, R169, R170). -/
theorem Run.linkSound {s t : State} (r : Run s t) (h : s.LinkSound) : t.LinkSound := by
  induction r with
  | refl => exact h
  | still _ m out ih =>
    have hok := m.prims.keeps Prim.linkOk ih.ok
    refine ⟨hok.notices, hok.listed, hok.replies, ?_⟩
    rw [out.hcts, out.state, out.sending, out.replies, out.notices]
    exact ih.eager
  | event _ m ih => exact (m.prims.keeps Prim.linkOk ih.ok).sendReady
  | reply _ m room x ih =>
    have hok := m.prims.keeps Prim.linkOk ih.ok
    rw [← m.prims.replies] at room
    refine State.LinkOk.sendReady ⟨hok.notices, hok.listed, ?_⟩
    simpa using room

end Sys2Proof.Machine
end

section
/-!
SUPPORT. What a reset leaves (R179), and that it satisfies every invariant.
-/

namespace Sys2Proof.Machine

variable (cause : Cause) (pending : List Instr) (e : Eeprom) (low : Bool)

theorem afterReset_crew (c : Nat) : (State.afterReset cause pending e low).crew c = .undefined := row_replicate c _
theorem afterReset_pool (p : Nat) : (State.afterReset cause pending e low).pool p = .empty := row_replicate p _
theorem afterReset_station (st : Nat) : (State.afterReset cause pending e low).station st = .undefined :=
  row_replicate st _
theorem afterReset_queue (st : Nat) : (State.afterReset cause pending e low).queue st = .empty :=
  row_replicate st _
theorem afterReset_group (g : Nat) : (State.afterReset cause pending e low).group g = .free := row_replicate g _
theorem afterReset_beacon (z : Nat) : (State.afterReset cause pending e low).beacon z = .released :=
  row_replicate z _

/-- A reset leaves every block in its reset state (R179). -/
theorem afterReset_justReset : (State.afterReset cause pending e low).JustReset cause where
  clock := rfl
  book := ⟨rfl, rfl, rfl, rfl⟩
  accepted := fun c => by rw [afterReset_crew]; rfl
  acks := rfl
  queues := afterReset_queue cause pending e low
  groups := afterReset_group cause pending e low
  burstId := rfl
  line := ⟨rfl, rfl, rfl⟩
  sden := fun _ => rfl
  beacons := fun z => by rw [afterReset_beacon]; exact ⟨rfl, rfl, rfl, rfl⟩
  link := ⟨rfl, rfl, rfl, rfl, rfl, rfl, rfl, rfl, rfl⟩
  store := ⟨rfl, rfl, rfl, rfl, rfl⟩
  hrdy := rfl

theorem afterReset_book : (State.afterReset cause pending e low).BookSound where
  capacity := Nat.zero_le _
  ascending := List.Pairwise.nil
  range := fun _ h => absurd h List.not_mem_nil
  closedOnce := List.nodup_nil
  closed := fun n => ⟨fun h => absurd h List.not_mem_nil, fun ⟨_, h, _⟩ => absurd h List.not_mem_nil⟩
  frees := nofun
  calls := fun _ h => absurd h List.not_mem_nil
  pools := fun k => by rw [afterReset_pool]; exact ⟨by decide, List.nodup_nil, Nat.le_refl _, fun h => absurd rfl h⟩
  starting := fun _ => ⟨rfl, rfl⟩

theorem afterReset_points : (State.afterReset cause pending e low).PointsSound where
  keys := List.nodup_nil
  opened := nofun
  raised := fun _ _ _ _ h => nomatch h
  pending := fun _ _ => ⟨nofun, fun ⟨_, h, _⟩ => nomatch h⟩
  once := List.nodup_nil
  waits := fun h => absurd rfl h

theorem afterReset_beacons : (State.afterReset cause pending e low).BeaconsSound where
  holders := fun z _ _ n => by rw [afterReset_beacon]; exact ⟨nofun, fun ⟨_, h, _⟩ => nomatch h⟩
  once := fun z => by rw [afterReset_beacon]; exact List.nodup_nil
  driving := fun z => by unfold State.wantedClass; rw [afterReset_beacon]; rfl

theorem afterReset_queues : (State.afterReset cause pending e low).QueuesSound := fun st => by
  rw [afterReset_queue]; exact StationQueue.empty_sound

theorem afterReset_registry : (State.afterReset cause pending e low).RegistrySound where
  members := fun pager c => by
    rw [afterReset_crew]
    exact ⟨fun ⟨_, h, _⟩ => (nomatch h), fun ⟨_, _, h⟩ => absurd h List.not_mem_nil⟩
  entries := List.nodup_nil
  accepted := fun c => by rw [afterReset_crew]; exact Nat.zero_le _

/-- The tables held while the load lasts are the defaults (R181). -/
theorem afterReset_image : (State.afterReset cause pending e low).image = Image.defaults := by
  simp only [State.image, State.afterReset, Registry.reset, Line.reset, CallBook.reset, Image.defaults,
    Vector.map_replicate]
  rfl

theorem afterReset_tables : (State.afterReset cause pending e low).TablesSound := by
  unfold State.TablesSound
  rw [afterReset_image]
  exact defaults_consistent

theorem afterReset_accepted : (State.afterReset cause pending e low).AcceptedSound where
  once := fun c => by rw [afterReset_crew]; exact List.nodup_nil
  held := fun c _ _ n => by rw [afterReset_crew]; exact ⟨nofun, fun ⟨_, h, _⟩ => nomatch h⟩

theorem afterReset_acks : (State.afterReset cause pending e low).AcksSound := ⟨Nat.zero_le _, List.Pairwise.nil⟩

theorem afterReset_air : (State.afterReset cause pending e low).AirSound where
  grants := fun g st h => by rw [afterReset_group] at h; exact nomatch h
  empty := fun st _ => by rw [afterReset_queue]; exact ⟨rfl, rfl⟩
  starting := fun _ => afterReset_station cause pending e low

theorem afterReset_link : (State.afterReset cause pending e low).LinkSound where
  notices := List.nodup_nil
  listed := nofun
  replies := Nat.zero_le _
  eager := nofun

/-- Settles O60: what `State.reset` holds is what any reset leaves. -/
theorem resetStateIsSound : Obligations.ResetStateIsSound :=
  ⟨⟨afterReset_justReset _ _ _ _, rfl, rfl, rfl, rfl⟩, afterReset_book _ _ _ _, afterReset_points _ _ _ _,
    afterReset_beacons _ _ _ _, afterReset_queues _ _ _ _, afterReset_registry _ _ _ _,
    afterReset_tables _ _ _ _, afterReset_accepted _ _ _ _, afterReset_acks _ _ _ _, afterReset_air _ _ _ _,
    afterReset_link _ _ _ _⟩

/-- The freeing of a sent record touches neither the waiting commands nor the store (R7). -/
theorem freeSent_store (s : State) (f : Frame) : (s.freeSent f).store = s.store := by
  rcases freeSent_eq s f with ⟨-, h⟩ | ⟨n, -, h⟩ <;> rw [h]
  rfl

/-- Settles O3: each of the three resets is `State.afterReset` with its cause. -/
theorem resetsResetEveryBlock : Obligations.ResetsResetEveryBlock := by
  refine ⟨fun s => ⟨_, rfl, afterReset_justReset _ _ _ _, rfl, rfl, rfl⟩, fun s hl => ?_, fun s hl => ?_,
    fun s f h hf hr => ?_⟩
  · refine ⟨s.resetBy .resetLine true, ?_, afterReset_justReset _ _ _ _, rfl, rfl, rfl⟩
    show execRstnLow s = _
    simp [execRstnLow, hl]
  · refine ⟨s.resetBy s.store.cause false, ?_, afterReset_justReset _ _ _ _, rfl, rfl, rfl⟩
    show execRstnHigh s = _
    simp [execRstnHigh, hl]
  · have hp := freeSent_pending (s.setLink { s.link with sending := none, hcts := h }) f
    have hst := freeSent_store (s.setLink { s.link with sending := none, hcts := h }) f
    have hx : exec (.frameSent h) s = .next
        (((s.setLink { s.link with sending := none, hcts := h }).freeSent f).resetBy .request
          ((s.setLink { s.link with sending := none, hcts := h }).freeSent f).store.rstnLow) := by
      show execFrameSent h s = _
      simp only [execFrameSent, hf, hr, if_true]
    generalize (s.setLink { s.link with sending := none, hcts := h }).freeSent f = u at hp hst hx
    have he : u.store.eeprom = s.store.eeprom := by rw [hst]; rfl
    have hl : u.store.rstnLow = s.store.rstnLow := by rw [hst]; rfl
    exact ⟨_, hx, afterReset_justReset _ _ _ _, hp, he, hl⟩

/-- Settles O56: a step is a run of moves, which keeps the queues and the link sound, or a reset. -/
theorem stepsKeepTheQueuesAndTheLinkSound : Obligations.StepsKeepTheQueuesAndTheLinkSound := by
  refine ⟨fun s t h hs => ?_, fun s t h hs => ?_⟩
  · rcases step_does hs with r | ⟨cause, e, low, rfl⟩
    · exact r.queues h
    · exact afterReset_queues _ _ _ _
  · rcases step_does hs with r | ⟨cause, e, low, rfl⟩
    · exact r.linkSound h
    · exact afterReset_link _ _ _ _

end Sys2Proof.Machine
end

section
/-!
SUPPORT. What every small change keeps of the crew registry and of the stored tables (R25 to R45, R99, R138, R180,
R182).
-/

namespace Sys2Proof.Machine

/-! ### The pager directory -/

/-- What the directory says of a pager, read from its entries (R28, R29). -/
theorem pagerEntry_owner_iff {s : State} (h : (s.registry.directory.map PagerEntry.pager).Nodup) (pager c : Nat) :
    (∃ e, s.pagerEntry? pager = some e ∧ e.owner = c) ↔ (pager, c) ∈ s.registry.directory.map PagerEntry.key := by
  rw [List.mem_map]
  constructor
  · rintro ⟨e, he, rfl⟩
    have hp : e.pager = pager := by simpa using List.find?_some he
    exact ⟨e, List.mem_of_find?_eq_some he, by rw [PagerEntry.key, hp]⟩
  · rintro ⟨e, he, hk⟩
    obtain ⟨hp, ho⟩ := Prod.mk.inj hk
    cases hf : s.pagerEntry? pager with
    | none =>
      have := List.find?_eq_none.mp hf e he
      simp [hp] at this
    | some x =>
      have hx : x.pager = pager := by simpa using List.find?_some hf
      have : x = e := List.inj_on_of_nodup_map h (List.mem_of_find?_eq_some hf) he (hx.trans hp.symm)
      exact ⟨x, rfl, this ▸ ho⟩

/-- The crew registry is sound, its directory read by its entries. -/
structure State.RegistryOk (s : State) : Prop where
  members : ∀ pager c, (pager, c) ∈ s.registry.directory.map PagerEntry.key ↔
    1 ≤ c ∧ c ≤ 48 ∧ pager ∈ (s.crew c).members
  entries : (s.registry.directory.map PagerEntry.pager).Nodup
  accepted : ∀ c, (s.crew c).accepted.length ≤ Config.maxAccepted

theorem registrySound_iff (s : State) : s.RegistrySound ↔ s.RegistryOk := by
  constructor
  · intro h
    exact ⟨fun p c => (pagerEntry_owner_iff h.entries p c).symm.trans (h.members p c), h.entries, h.accepted⟩
  · intro h
    exact ⟨fun p c => (pagerEntry_owner_iff h.entries p c).trans (h.members p c), h.entries, h.accepted⟩

theorem map_pager_eq (d : List PagerEntry) : d.map PagerEntry.pager = (d.map PagerEntry.key).map Prod.fst := by
  rw [List.map_map]; rfl

/-- A change that leaves members and directory keys alone. -/
theorem State.RegistryOk.congr {s t : State} (h : s.RegistryOk)
    (hd : t.registry.directory.map PagerEntry.key = s.registry.directory.map PagerEntry.key)
    (hm : ∀ c, (t.crew c).members = (s.crew c).members)
    (ha : ∀ c, (t.crew c).accepted.length ≤ Config.maxAccepted) : t.RegistryOk where
  members := fun p c => by rw [hd, hm]; exact h.members p c
  entries := by rw [map_pager_eq, hd, ← map_pager_eq]; exact h.entries
  accepted := ha

theorem State.RegistryOk.of_crews {s t : State} (h : s.RegistryOk)
    (hd : t.registry.directory.map PagerEntry.key = s.registry.directory.map PagerEntry.key)
    (hc : t.registry.crews = s.registry.crews) : t.RegistryOk :=
  have hcrew : ∀ c, t.crew c = s.crew c := fun c => by unfold State.crew; rw [hc]
  h.congr hd (fun c => by rw [hcrew]) fun c => by rw [hcrew]; exact h.accepted c

theorem State.RegistryOk.of_registry {s t : State} (h : s.RegistryOk) (e : t.registry = s.registry) :
    t.RegistryOk := h.of_crews (by rw [e]) (by rw [e])

theorem insertEntry_perm (e : PagerEntry) (d : List PagerEntry) : (insertEntry e d).Perm (e :: d) := by
  induction d with
  | nil => exact .refl _
  | cons x xs ih =>
    unfold insertEntry
    split
    · exact .refl _
    · exact (ih.cons x).trans (.swap e x xs)

/-- Entries put in one after another (R29). -/
theorem foldl_insertEntry_perm {α : Type} (f : α → PagerEntry) (xs : List α) (d : List PagerEntry) :
    (xs.foldl (fun d x => insertEntry (f x) d) d).Perm (xs.map f ++ d) := by
  induction xs generalizing d with
  | nil => exact .refl _
  | cons x xs ih =>
    rw [List.foldl_cons, List.map_cons]
    exact (ih _).trans (((insertEntry_perm (f x) d).append_left _).trans List.perm_middle)

/-- The directory after the members of a crew changed: its leavers' entries gone, its joiners' created (R29, R33). -/
theorem updateDirectory_perm (crew : Nat) (old new : List Nat) (d : List PagerEntry) :
    (updateDirectory crew old new d).Perm
      ((new.filter (fun p => !old.contains p)).map (fun p => ⟨p, crew, none⟩) ++
        d.filter (fun e => !(old.contains e.pager && !new.contains e.pager))) :=
  foldl_insertEntry_perm (fun p => ⟨p, crew, none⟩) _ _

theorem mem_updateDirectory {crew pager c : Nat} {old new : List Nat} {d : List PagerEntry} :
    (pager, c) ∈ (updateDirectory crew old new d).map PagerEntry.key ↔
      (pager ∈ new ∧ pager ∉ old ∧ c = crew) ∨
        ((pager, c) ∈ d.map PagerEntry.key ∧ ¬ (pager ∈ old ∧ pager ∉ new)) := by
  rw [((updateDirectory_perm crew old new d).map _).mem_iff, List.map_append, List.mem_append, List.map_map]
  refine or_congr ?_ ?_
  · simp only [List.mem_map, List.mem_filter, Function.comp_apply, PagerEntry.key, Prod.mk.injEq]
    constructor
    · rintro ⟨a, ⟨ha, hn⟩, rfl, rfl⟩
      exact ⟨ha, by simpa using hn, rfl⟩
    · rintro ⟨ha, hn, rfl⟩
      exact ⟨pager, ⟨ha, by simpa using hn⟩, rfl, rfl⟩
  · simp only [List.mem_map, List.mem_filter, PagerEntry.key, Prod.mk.injEq]
    constructor
    · rintro ⟨e, ⟨he, hk⟩, rfl, rfl⟩
      exact ⟨⟨e, he, rfl, rfl⟩, by simpa [imp_iff_not_or] using hk⟩
    · rintro ⟨⟨e, he, rfl, rfl⟩, hk⟩
      exact ⟨e, ⟨he, by simpa [imp_iff_not_or] using hk⟩, rfl, rfl⟩

/-- A pager that no other crew carries has an entry of this crew or none (R28). -/
theorem State.RegistryOk.not_elsewhere {s : State} (h : s.RegistryOk) {crew pager c : Nat}
    (hn : s.carriedElsewhere crew pager = false) (hk : (pager, c) ∈ s.registry.directory.map PagerEntry.key) :
    c = crew := by
  obtain ⟨e, he, ho⟩ := (pagerEntry_owner_iff h.entries pager c).mpr hk
  unfold State.carriedElsewhere at hn
  rw [he] at hn
  simpa [ho] using hn

/-- SET_CREW keeps the registry sound (R28 to R30). -/
theorem State.RegistryOk.replaceCrew {s : State} (h : s.RegistryOk) {c : Nat} {x : Crew} (hx : CrewChange s c x) :
    (s.replaceCrew c x).RegistryOk := by
  rcases replaceCrew_eq s c x with e | e <;> rw [e]
  · exact h
  refine State.RegistryOk.of_registry (s := (s.setRegistry { s.registry with
      directory := updateDirectory c (s.crew c).members x.members s.registry.directory }).putCrew c x) ?_ (by simp)
  have hcrew : ∀ k, ((s.setRegistry { s.registry with
      directory := updateDirectory c (s.crew c).members x.members s.registry.directory }).putCrew c x).crew k =
      if k = c then x else s.crew k := fun k => by
    rw [State.putCrew_crew_eq]
    by_cases hk : k = c
    · rw [if_pos ⟨hk, hx.number⟩, if_pos hk]
    · rw [if_neg fun e => hk e.1, if_neg hk]; rfl
  have old : ∀ pager, (pager, c) ∈ s.registry.directory.map PagerEntry.key ↔ pager ∈ (s.crew c).members :=
    fun pager => (h.members pager c).trans ⟨fun k => k.2.2, fun k => ⟨hx.number.1, hx.number.2, k⟩⟩
  refine ⟨fun pager k => ?_, ?_, fun k => ?_⟩
  · rw [State.putCrew_directory, hcrew]
    refine mem_updateDirectory.trans ?_
    by_cases hk : k = c
    · subst hk
      rw [if_pos rfl, old]
      have := hx.number
      tauto
    · rw [if_neg hk, ← h.members pager k]
      have apart : (pager, k) ∈ s.registry.directory.map PagerEntry.key → pager ∉ (s.crew c).members := by
        intro hm ho
        obtain ⟨e, he, heo⟩ := (pagerEntry_owner_iff h.entries pager k).mpr hm
        obtain ⟨e', he', heo'⟩ := (pagerEntry_owner_iff h.entries pager c).mpr ((old pager).mpr ho)
        rw [he] at he'
        cases he'
        exact hk (heo.symm.trans heo')
      tauto
  · rw [State.putCrew_directory]
    refine ((updateDirectory_perm _ _ _ _).map PagerEntry.pager).nodup_iff.mpr ?_
    rw [List.map_append, List.map_map, List.nodup_append]
    have hid : PagerEntry.pager ∘ (fun p => (⟨p, c, none⟩ : PagerEntry)) = id := rfl
    rw [hid, List.map_id]
    refine ⟨?_, h.entries.sublist (List.filter_sublist.map _), ?_⟩
    · rcases hx.members with hm | ⟨hnd, -⟩
      · rw [hm, List.filter_eq_nil_iff.mpr fun p hp => by simp [hp]]
        exact List.nodup_nil
      · exact hnd.filter _
    · rintro p hp _ hq rfl
      obtain ⟨hpn, hpo⟩ := List.mem_filter.mp hp
      have hpo : p ∉ (s.crew c).members := by simpa using hpo
      obtain ⟨e, he, hep⟩ := List.mem_map.mp hq
      rcases hx.members with hm | ⟨-, hce⟩
      · exact hpo (hm ▸ hpn)
      · have hk : (p, e.owner) ∈ s.registry.directory.map PagerEntry.key :=
          List.mem_map.mpr ⟨e, (List.mem_filter.mp he).1, by rw [PagerEntry.key, hep]⟩
        have ho : e.owner = c := h.not_elsewhere (hce p hpn) hk
        rw [ho] at hk
        exact hpo ((old p).mp hk)
  · rw [hcrew]
    split
    · rw [hx.accepted]; exact h.accepted c
    · exact h.accepted k

/-! ### The directory a load makes -/

/-- The member entries of numbered crews (R42). -/
def memberEntries (xs : List (Nat × Crew)) : List PagerEntry :=
  xs.flatMap (fun x => if x.2.defined then x.2.members.map (fun p => ⟨p, x.1, none⟩) else [])

theorem foldl_members_perm (xs : List (Nat × Crew)) (d : List PagerEntry) :
    (xs.foldl (fun d x => if x.2.defined then x.2.members.foldl (fun d p => insertEntry ⟨p, x.1, none⟩ d) d else d)
      d).Perm (memberEntries xs ++ d) := by
  induction xs generalizing d with
  | nil => exact .refl _
  | cons x xs ih =>
    rw [List.foldl_cons]
    refine (ih _).trans ?_
    unfold memberEntries
    rw [List.flatMap_cons]
    split
    · refine ((foldl_insertEntry_perm (fun p => ⟨p, x.1, none⟩) x.2.members d).append_left _).trans ?_
      rw [← List.append_assoc]
      exact List.perm_append_comm.append_right d
    · exact .refl _

theorem loadedDirectory_perm (crews : List Crew) :
    (loadedDirectory crews).Perm (memberEntries ((List.range' 1 crews.length).zip crews)) := by
  have := foldl_members_perm ((List.range' 1 crews.length).zip crews) []
  rwa [List.append_nil] at this

/-- Crew `k` of a list of numbered crews. -/
theorem mem_numbered {α : Type} {xs : List α} {k : Nat} {x : α} :
    (k, x) ∈ (List.range' 1 xs.length).zip xs ↔ 1 ≤ k ∧ xs[k - 1]? = some x := by
  rw [List.mem_iff_getElem?]
  constructor
  · rintro ⟨i, hi⟩
    obtain ⟨h1, h2⟩ := List.getElem?_zip_eq_some.mp hi
    rw [List.getElem?_range' (List.getElem?_eq_some_iff.mp h2).1] at h1
    have hk : 1 + 1 * i = k := Option.some.inj h1
    refine ⟨by omega, ?_⟩
    rwa [show k - 1 = i by omega]
  · rintro ⟨hk, hx⟩
    have hl : k - 1 < xs.length := (List.getElem?_eq_some_iff.mp hx).1
    refine ⟨k - 1, List.getElem?_zip_eq_some.mpr ⟨?_, hx⟩⟩
    rw [List.getElem?_range' hl, show 1 + 1 * (k - 1) = k by omega]

theorem mem_memberEntries {xs : List (Nat × Crew)} {e : PagerEntry} :
    e ∈ memberEntries xs ↔ e.location = none ∧ ∃ x, (e.owner, x) ∈ xs ∧ x.defined = true ∧ e.pager ∈ x.members := by
  unfold memberEntries
  rw [List.mem_flatMap]
  constructor
  · rintro ⟨⟨k, x⟩, hx, he⟩
    split at he
    · next hd =>
      obtain ⟨p, hp, rfl⟩ := List.mem_map.mp he
      exact ⟨rfl, x, hx, hd, hp⟩
    · exact absurd he List.not_mem_nil
  · rintro ⟨hl, x, hx, hd, hp⟩
    refine ⟨(e.owner, x), hx, ?_⟩
    rw [if_pos hd]
    exact List.mem_map.mpr ⟨e.pager, hp, by rw [← hl]⟩

/-- Record `k` of a table, where the table has it. -/
theorem row_eq_getElem? {α : Type} {n : Nat} (t : Vector α n) (k : Nat) (d : α) (hk : 1 ≤ k) :
    row t k d = (t.toList[k - 1]?).getD d := by
  unfold row
  rw [if_neg (by omega), List.getD_eq_getElem?_getD]

/-- What holds of every record of a table and of the value for a missing one holds of whatever a number gives, and
the other way about. -/
theorem forall_row_iff {α : Type} {n : Nat} {P : α → Prop} (t : Vector α n) (d : α) (hd : P d) :
    (∀ x ∈ t.toList, P x) ↔ ∀ k, P (row t k d) := by
  refine ⟨fun h k => row_all t d hd h k, fun h x hx => ?_⟩
  obtain ⟨i, hi⟩ := List.mem_iff_getElem?.mp hx
  have := h (i + 1)
  rwa [row_eq_getElem? t (i + 1) d (by omega), Nat.add_sub_cancel, hi] at this

theorem loaded_stored (x : StoredCrew) : x.loaded.stored = x := rfl

/-- The stored values of the crews of an image, as `Crew` records. -/
theorem install_crew (s : State) (img : Image) (k : Nat) :
    (s.install img).crew k = (row img.crews k Crew.undefined.stored).loaded :=
  row_map StoredCrew.loaded img.crews k Crew.undefined.stored

/-- What `Image.consistent` says, part by part (R180). -/
structure Image.Consistent (i : Image) : Prop where
  params : i.params.inRange = true
  crews : ∀ x ∈ i.crews.toList, x.inRange = true
  apart : (i.crews.toList.flatMap StoredCrew.members).Nodup
  pools : ∀ x ∈ i.pools.toList, poolInRange x = true
  ladders : ∀ x ∈ i.ladders.toList, x.inRange = true
  stations : ∀ k x, 1 ≤ k → i.stations.toList[k - 1]? = some x → x.inRange k = true
  points : ∀ x ∈ i.points, x.inRange = true
  count : i.points.length ≤ Config.maxPoints
  keys : (i.points.map (fun p => (p.station, p.input))).Nodup

theorem all_zipWith_range' {α : Type} (f : Nat → α → Bool) (xs : List α) (n m : Nat) (h : xs.length = m) :
    (List.zipWith f (List.range' n m) xs).all id = true ↔ ∀ i x, xs[i]? = some x → f (n + i) x = true := by
  subst h
  simp only [List.all_eq_true, id_eq]
  constructor
  · intro h i x hx
    have hl : i < xs.length := (List.getElem?_eq_some_iff.mp hx).1
    refine h _ (List.mem_iff_getElem?.mpr ⟨i, ?_⟩)
    rw [List.getElem?_zipWith, List.getElem?_range' hl, hx, Nat.one_mul]
  · intro h b hb
    obtain ⟨i, hi⟩ := List.mem_iff_getElem?.mp hb
    have hl := (List.getElem?_eq_some_iff.mp hi).1
    rw [List.length_zipWith, List.length_range', Nat.min_self] at hl
    rw [List.getElem?_zipWith, List.getElem?_range' hl, Nat.one_mul, List.getElem?_eq_getElem hl] at hi
    rw [← Option.some.inj hi]
    exact h i _ (List.getElem?_eq_getElem hl)

theorem consistent_iff (i : Image) : i.consistent = true ↔ i.Consistent := by
  have stations : (List.zipWith StoredStation.inRange (List.range' 1 12) i.stations.toList).all id = true ↔
      ∀ k x, 1 ≤ k → i.stations.toList[k - 1]? = some x → x.inRange k = true := by
    rw [all_zipWith_range' _ _ 1 12 (by simp)]
    constructor
    · intro h k x hk hx
      have := h (k - 1) x hx
      rwa [show 1 + (k - 1) = k by omega] at this
    · intro h k x hx
      exact h (1 + k) x (by omega) (by rwa [show 1 + k - 1 = k by omega])
  unfold Image.consistent distinct
  rw [Bool.and_eq_true, Bool.and_eq_true, Bool.and_eq_true, Bool.and_eq_true, Bool.and_eq_true, Bool.and_eq_true,
    Bool.and_eq_true, Bool.and_eq_true, stations]
  simp only [List.all_eq_true, decide_eq_true_eq]
  constructor
  · rintro ⟨⟨⟨⟨⟨⟨⟨⟨h1, h2⟩, h3⟩, h4⟩, h5⟩, h6⟩, h7⟩, h8⟩, h9⟩
    exact ⟨h1, h2, h3, h4, h5, h6, h7, h8, h9⟩
  · rintro ⟨h1, h2, h3, h4, h5, h6, h7, h8, h9⟩
    exact ⟨⟨⟨⟨⟨⟨⟨⟨h1, h2⟩, h3⟩, h4⟩, h5⟩, h6⟩, h7⟩, h8⟩, h9⟩

/-- An undefined crew of an image has no members (R25, entry 34). -/
theorem defined_of_member {x : StoredCrew} (h : x.inRange = true) {p : Nat} (hp : p ∈ x.members) :
    x.defined = true := by
  simp only [StoredCrew.inRange, Bool.and_eq_true, Bool.or_eq_true, decide_eq_true_eq] at h
  rcases h.2 with hd | he
  · exact hd
  · rw [he] at hp
    exact absurd hp List.not_mem_nil

/-- The members of the crews of a list, crew by crew, once the entries are made (R42). -/
theorem memberEntries_pagers (xs : List Crew) (n : Nat) (h : ∀ x ∈ xs, ∀ p ∈ x.members, x.defined = true) :
    (memberEntries ((List.range' n xs.length).zip xs)).map PagerEntry.pager = xs.flatMap Crew.members := by
  induction xs generalizing n with
  | nil => rfl
  | cons x xs ih =>
    have ih := ih (n + 1) fun y hy => h y (List.mem_cons_of_mem _ hy)
    unfold memberEntries at ih ⊢
    rw [List.length_cons, List.range'_succ, List.zip_cons_cons, List.flatMap_cons, List.map_append, ih,
      List.flatMap_cons]
    congr 1
    split
    · rw [List.map_map]; exact List.map_id _
    · next hd =>
      cases hm : x.members with
      | nil => rfl
      | cons p ps => exact absurd (h x List.mem_cons_self p (by rw [hm]; exact List.mem_cons_self)) hd

/-- The registry that a load installs is sound (R28 to R30, R42). -/
theorem install_registry (s : State) (img : Image) (h : img.consistent = true) : (s.install img).RegistryOk := by
  have hc := (consistent_iff img).mp h
  have hdef : ∀ x ∈ (img.crews.map StoredCrew.loaded).toList, ∀ p ∈ x.members, x.defined = true := by
    intro x hx p hp
    rw [Vector.toList_map] at hx
    obtain ⟨y, hy, rfl⟩ := List.mem_map.mp hx
    exact defined_of_member (hc.crews y hy) hp
  have hdir : (s.install img).registry.directory = loadedDirectory (img.crews.map StoredCrew.loaded).toList := rfl
  have hperm := loadedDirectory_perm (img.crews.map StoredCrew.loaded).toList
  refine ⟨fun pager c => ?_, ?_, fun c => ?_⟩
  · rw [hdir, (hperm.map PagerEntry.key).mem_iff, List.mem_map]
    have hcrew : ∀ k, 1 ≤ k → ((s.install img).crew k) =
        ((img.crews.map StoredCrew.loaded).toList[k - 1]?).getD .undefined := fun k hk =>
      row_eq_getElem? _ k _ hk
    constructor
    · rintro ⟨e, he, hk⟩
      obtain ⟨rfl, rfl⟩ := Prod.mk.inj hk
      obtain ⟨-, x, hx, hd, hp⟩ := mem_memberEntries.mp he
      obtain ⟨h1, hx⟩ := mem_numbered.mp hx
      have hl := (List.getElem?_eq_some_iff.mp hx).1
      rw [Vector.length_toList] at hl
      refine ⟨h1, by omega, ?_⟩
      rw [hcrew _ h1, hx]
      exact hp
    · rintro ⟨h1, h2, hp⟩
      rw [hcrew _ h1] at hp
      cases hx : (img.crews.map StoredCrew.loaded).toList[c - 1]? with
      | none => rw [hx] at hp; exact absurd hp List.not_mem_nil
      | some x =>
        rw [hx] at hp
        refine ⟨⟨pager, c, none⟩, mem_memberEntries.mpr ⟨rfl, x, mem_numbered.mpr ⟨h1, hx⟩, ?_, hp⟩, rfl⟩
        exact hdef x (List.mem_of_getElem? hx) pager hp
  · rw [hdir, (hperm.map PagerEntry.pager).nodup_iff, memberEntries_pagers _ 1 hdef, Vector.toList_map,
      List.flatMap_map]
    exact hc.apart
  · rw [install_crew]; exact Nat.zero_le _

/-! ### Every small change keeps the registry -/

theorem Act.registryOk {s t : State} (a : Act s t) (h : s.RegistryOk) : t.RegistryOk := by
  cases a with
  | change n f _ => exact h.of_registry (by simp)
  | pointer p k => exact h.of_crews rfl rfl
  | _ => exact h.of_registry rfl

/-- Every small change keeps the crew registry sound (R28 to R30). -/
theorem Prim.registryOk {s t : State} (p : Prim s t) (h : s.RegistryOk) : t.RegistryOk := by
  cases p with
  | act a => exact a.registryOk h
  | calm c => exact h.of_crews c.keys c.crews
  | note k _ => exact h.of_registry (by simp)
  | change n f _ => exact h.of_registry (by simp)
  | accepted c l room =>
    refine h.congr rfl (fun k => ?_) fun k => ?_
    all_goals rw [State.putCrew_crew_eq]
    all_goals split
    · next hk => rw [hk.1]
    · rfl
    · exact room (h.accepted c)
    · exact h.accepted k
  | crew c x hx => exact h.replaceCrew hx
  | pool p l _ => exact h.of_crews rfl rfl
  | install img hc => exact install_registry s img hc
  | _ => exact h.of_registry rfl

theorem Run.registrySound {s t : State} (r : Run s t) (h : s.RegistrySound) : t.RegistrySound := by
  rw [registrySound_iff] at h ⊢
  exact r.keeps Prim.registryOk (fun _ _ _ _ h => h.of_registry rfl) h

/-! ### The stored tables -/

/-- The stored tables are in range, each record by its number; that no pager is in two crews is the registry's part. -/
structure State.TablesOk (s : State) : Prop where
  params : s.store.params.inRange = true
  crews : ∀ k, (s.crew k).stored.inRange = true
  pools : ∀ k, poolInRange (s.pool k).crews = true
  ladders : ∀ k, (s.ladder k).inRange = true
  stations : ∀ k, (s.station k).stored.inRange k = true
  points : pointsInRange s.book.points

theorem undefinedStation_inRange (k : Nat) : Station.undefined.stored.inRange k = true := by
  simp [StoredStation.inRange, Station.stored, Station.undefined, neighboursAllowed, allWithin, distinct, within]

theorem image_stations (s : State) :
    (∀ k x, 1 ≤ k → s.image.stations.toList[k - 1]? = some x → x.inRange k = true) ↔
      ∀ k, (s.station k).stored.inRange k = true := by
  have hrow : ∀ k, 1 ≤ k → (s.station k).stored = (s.image.stations.toList[k - 1]?).getD Station.undefined.stored := by
    intro k hk
    rw [← row_eq_getElem? s.image.stations k _ hk]
    exact (row_map Station.stored s.line.stations k .undefined).symm
  constructor
  · intro h k
    by_cases hk : 1 ≤ k
    · rw [hrow k hk]
      cases hx : s.image.stations.toList[k - 1]? with
      | none => exact undefinedStation_inRange k
      | some x => exact h k x hk hx
    · have : s.station k = .undefined := row_outside _ _ _ (by omega)
      rw [this]
      exact undefinedStation_inRange k
  · intro h k x hk hx
    have := h k
    rwa [hrow k hk, hx] at this

/-- No pager is in two crews, and none twice in one, when the registry is sound and each member list is (R28). -/
theorem image_apart {s : State} (h : s.RegistryOk) (hm : ∀ k, (s.crew k).members.Nodup) :
    (s.image.crews.toList.flatMap StoredCrew.members).Nodup := by
  have hget : ∀ i x, s.registry.crews.toList[i]? = some x → s.crew (i + 1) = x := fun i x hx => by
    show row _ _ _ = _
    rw [row_eq_getElem? _ _ _ (by omega), Nat.add_sub_cancel, hx]
    rfl
  have hl : (s.image.crews.toList.flatMap StoredCrew.members) = s.registry.crews.toList.flatMap Crew.members := by
    show (Vector.map Crew.stored s.registry.crews).toList.flatMap _ = _
    rw [Vector.toList_map, List.flatMap_map]
    rfl
  rw [hl, List.nodup_flatMap]
  refine ⟨fun x hx => ?_, List.pairwise_iff_getElem.mpr fun i j hi hj hij p hp hq => ?_⟩
  · obtain ⟨i, hi⟩ := List.mem_iff_getElem?.mp hx
    rw [← hget i x hi]
    exact hm _
  · have hi' := hget i _ (List.getElem?_eq_getElem hi)
    have hj' := hget j _ (List.getElem?_eq_getElem hj)
    rw [Vector.length_toList] at hi hj
    have owner : ∀ k, k < 48 → p ∈ (s.crew (k + 1)).members → ∃ e, s.pagerEntry? p = some e ∧ e.owner = k + 1 :=
      fun k hk hp => (pagerEntry_owner_iff h.entries p (k + 1)).mpr ((h.members p (k + 1)).mpr ⟨by omega, by omega, hp⟩)
    obtain ⟨e, he, ho⟩ := owner i hi (hi' ▸ hp)
    obtain ⟨e', he', ho'⟩ := owner j hj (hj' ▸ hq)
    rw [he] at he'
    cases he'
    omega

theorem tablesSound_iff {s : State} (h : s.RegistryOk) : s.TablesSound ↔ s.TablesOk := by
  have crews : (∀ x ∈ s.image.crews.toList, x.inRange = true) ↔ ∀ k, (s.crew k).stored.inRange = true := by
    rw [forall_row_iff s.image.crews Crew.undefined.stored (by decide)]
    refine forall_congr' fun k => ?_
    have hk : row s.image.crews k Crew.undefined.stored = (s.crew k).stored :=
      row_map Crew.stored s.registry.crews k .undefined
    rw [hk]
  have pools : (∀ x ∈ s.image.pools.toList, poolInRange x = true) ↔ ∀ k, poolInRange (s.pool k).crews = true := by
    rw [forall_row_iff s.image.pools Pool.empty.crews (by decide)]
    refine forall_congr' fun k => ?_
    have hk : row s.image.pools k Pool.empty.crews = (s.pool k).crews :=
      row_map Pool.crews s.registry.pools k .empty
    rw [hk]
  have ladders : (∀ x ∈ s.image.ladders.toList, x.inRange = true) ↔ ∀ k, (s.ladder k).inRange = true :=
    forall_row_iff s.ladders .default (by decide)
  have keys : (s.image.points.map (fun p => (p.station, p.input))) =
      s.book.points.map (fun p => (p.station, p.input)) := List.map_map
  have points : (∀ x ∈ s.image.points, x.inRange = true) ↔ ∀ p ∈ s.book.points, p.stored.inRange = true :=
    List.forall_mem_map
  have count : s.image.points.length = s.book.points.length := List.length_map _
  rw [State.TablesSound, consistent_iff]
  constructor
  · intro hc
    exact ⟨hc.params, crews.mp hc.crews, pools.mp hc.pools, ladders.mp hc.ladders, (image_stations s).mp hc.stations,
      points.mp hc.points, count ▸ hc.count, keys ▸ hc.keys⟩
  · intro ht
    refine ⟨ht.params, crews.mpr ht.crews, image_apart h fun k => ?_, pools.mpr ht.pools, ladders.mpr ht.ladders,
      (image_stations s).mpr ht.stations, points.mpr ht.points.1, count ▸ ht.points.2.1, keys ▸ ht.points.2.2⟩
    have := ht.crews k
    simp only [StoredCrew.inRange, Bool.and_eq_true, distinct, decide_eq_true_eq] at this
    exact this.1.1.2

theorem State.TablesOk.congr {s t : State} (h : s.TablesOk) (hp : t.store.params = s.store.params)
    (hc : ∀ k, (t.crew k).stored = (s.crew k).stored) (hr : ∀ k, (t.pool k).crews = (s.pool k).crews)
    (hl : t.ladders = s.ladders) (hs : ∀ k, (t.station k).stored = (s.station k).stored)
    (hb : pointsInRange t.book.points) : t.TablesOk where
  params := hp ▸ h.params
  crews := fun k => hc k ▸ h.crews k
  pools := fun k => hr k ▸ h.pools k
  ladders := fun k => by unfold State.ladder; rw [hl]; exact h.ladders k
  stations := fun k => hs k ▸ h.stations k
  points := hb

theorem Act.tablesOk {s t : State} (a : Act s t) (h : s.TablesOk) : t.TablesOk := by
  cases a with
  | change n f _ =>
    refine h.congr (by simp) (by simp) (by simp) (by simp) (by simp) ?_
    have hp : (s.changeCall n f).book.points = s.book.points := by
      unfold State.changeCall
      split
      · rfl
      · rw [State.post_book, State.putCall_book]
    rw [hp]
    exact h.points
  | pointer p k =>
    refine h.congr rfl (fun _ => rfl) (fun j => ?_) rfl (fun _ => rfl) h.points
    rw [State.putPool_pool_eq]
    split
    · next hj => rw [hj.1]
    · rfl
  | _ => exact h.congr rfl (fun _ => rfl) (fun _ => rfl) rfl (fun _ => rfl) h.points

theorem install_tables (s : State) (img : Image) (h : img.consistent = true) : (s.install img).TablesOk := by
  have hc := (consistent_iff img).mp h
  refine ⟨hc.params, fun k => ?_, fun k => ?_, fun k => ?_, fun k => ?_, ?_, ?_, ?_⟩
  · rw [install_crew, loaded_stored]
    exact (forall_row_iff img.crews _ (by decide)).mp hc.crews k
  · have : (s.install img).pool k = loadedPool (row img.pools k []) := row_map loadedPool img.pools k []
    rw [this]
    exact (forall_row_iff (P := fun l => poolInRange l = true) img.pools [] (by decide)).mp hc.pools k
  · exact (forall_row_iff (P := fun l : Ladder => l.inRange = true) img.ladders .default (by decide)).mp hc.ladders k
  · have hrow : (s.install img).station k = (row img.stations k Station.undefined.stored).loaded s.clock :=
      row_map (StoredStation.loaded s.clock) img.stations k Station.undefined.stored
    have hin : (row img.stations k Station.undefined.stored).inRange k = true := by
      by_cases hk : 1 ≤ k
      · rw [row_eq_getElem? _ _ _ hk]
        cases hx : img.stations.toList[k - 1]? with
        | none => exact undefinedStation_inRange k
        | some x => exact hc.stations k x hk hx
      · rw [row_outside _ _ _ (by omega)]
        exact undefinedStation_inRange k
    rw [hrow]
    unfold StoredStation.loaded
    split
    · next hd =>
      have : (⟨true, (row img.stations k Station.undefined.stored).group,
          (row img.stations k Station.undefined.stored).setting,
          (row img.stations k Station.undefined.stored).neighbours⟩ : StoredStation) =
          row img.stations k Station.undefined.stored := by rw [← hd]
      exact (congrArg (StoredStation.inRange k) this).trans hin
    · exact undefinedStation_inRange k
  · intro p hp
    obtain ⟨x, hx, rfl⟩ := List.mem_map.mp hp
    exact hc.points x hx
  · show (img.points.map StoredPoint.loaded).length ≤ _
    rw [List.length_map]; exact hc.count
  · show ((img.points.map StoredPoint.loaded).map _).Nodup
    rw [List.map_map]; exact hc.keys

/-- Every small change keeps the stored tables in range (R11, R25, R35, R45, R99, R138, R182). -/
theorem Prim.tablesOk {s t : State} (p : Prim s t) (h : s.TablesOk) : t.TablesOk := by
  have same : t.store.params = s.store.params → t.registry = s.registry → t.ladders = s.ladders →
      (∀ k, (t.station k).stored = (s.station k).stored) → pointsInRange t.book.points → t.TablesOk :=
    fun hp hr hl hs hb => h.congr hp (fun k => by unfold State.crew; rw [hr]) (fun k => by unfold State.pool; rw [hr])
      hl hs hb
  cases p with
  | act a => exact a.tablesOk h
  | calm c =>
    exact h.congr c.params (fun k => by unfold State.crew; rw [c.crews]) (fun k => by unfold State.pool; rw [c.pools])
      c.ladders c.stations (c.book ▸ h.points)
  | note k _ => exact same (by simp) (by simp) (by simp) (by simp) (by rw [State.post_book]; exact h.points)
  | change n f hf =>
    refine same (by simp) (by simp) (by simp) (by simp) ?_
    have hp : (s.changeCall n f).book.points = s.book.points := by
      unfold State.changeCall
      split
      · rfl
      · rw [State.post_book, State.putCall_book]
    rw [hp]
    exact h.points
  | book b _ hb => exact same rfl rfl rfl (fun _ => rfl) (hb h.points)
  | remove n => exact same rfl rfl rfl (fun _ => rfl) h.points
  | accepted c l _ =>
    refine h.congr rfl (fun k => ?_) (fun _ => rfl) rfl (fun _ => rfl) h.points
    rw [State.putCrew_crew_eq]
    split
    · next hk => rw [hk.1]; rfl
    · rfl
  | crew c x hx =>
    rcases replaceCrew_eq s c x with e | e <;> rw [e]
    · exact h
    · refine ⟨by simpa using h.params, fun k => ?_, fun k => by rw [State.post_pool]; exact h.pools k,
        fun k => by simpa using h.ladders k,
        fun k => by simpa using h.stations k, by simpa using h.points⟩
      rw [State.post_crew, State.putCrew_crew_eq]
      split
      · exact hx.inRange (h.crews c)
      · exact h.crews k
  | pool p l hl =>
    refine ⟨h.params, h.crews, fun k => ?_, h.ladders, h.stations, h.points⟩
    rw [State.putPool_pool_eq]
    split
    · exact hl
    · exact h.pools k
  | ladder j l hl =>
    refine ⟨h.params, h.crews, h.pools, fun k => ?_, h.stations, h.points⟩
    show (row (setRow s.ladders j l) k .default).inRange = true
    rw [row_setRow]
    split
    · exact hl
    · exact h.ladders k
  | station st x hx =>
    refine ⟨h.params, h.crews, h.pools, h.ladders, fun k => ?_, h.points⟩
    rw [State.putStation_station_eq]
    split
    · next hk => rw [hk.1]; exact hx (h.stations st)
    · exact h.stations k
  | params p hp => exact ⟨hp h.params, h.crews, h.pools, h.ladders, h.stations, h.points⟩
  | install img hc => exact install_tables s img hc

theorem Run.tablesOk {s t : State} (r : Run s t) (h : s.TablesOk) : t.TablesOk :=
  r.keeps Prim.tablesOk (fun _ _ _ _ h => ⟨h.params, h.crews, h.pools, h.ladders, h.stations, h.points⟩) h

/-- Settles O57: a step is a run of moves, each of which keeps the registry and then the tables, or a reset. -/
theorem stepsKeepTheTablesInRange : Obligations.StepsKeepTheTablesInRange := by
  intro s t hr ht h
  rcases step_does h with r | ⟨cause, e, low, rfl⟩
  · have hr' := r.registrySound hr
    rw [tablesSound_iff ((registrySound_iff s).mp hr)] at ht
    exact ⟨hr', (tablesSound_iff ((registrySound_iff t).mp hr')).mpr (r.tablesOk ht)⟩
  · exact ⟨afterReset_registry _ _ _ _, afterReset_tables _ _ _ _⟩

end Sys2Proof.Machine
end

section
/-!
SUPPORT. What the operations of the call book, and escalation, keep of its soundness (R1 to R7, R24, R35, R55).
-/

namespace Sys2Proof.Machine

/-! ### Numbers (R4) -/

theorem numberAfter_injOn (counter : Nat) : ∀ i ∈ List.range 97, ∀ j ∈ List.range 97,
    numberAfter counter i = numberAfter counter j → i = j := by
  intro i hi j hj h
  simp only [List.mem_range] at hi hj
  unfold numberAfter at h
  omega

/-- Among 97 numbers in a row one is free, since the book holds at most 96 records. -/
theorem exists_free_number (b : CallBook) (h : b.calls.length ≤ 96) :
    ∃ n ∈ (List.range 97).map (numberAfter b.counter), n ∉ b.calls.map Call.number := by
  by_contra hn
  push Not at hn
  have hnd : ((List.range 97).map (numberAfter b.counter)).Nodup :=
    (List.nodup_map_iff_inj_on List.nodup_range).mpr (numberAfter_injOn b.counter)
  have := (hnd.subperm hn).length_le
  simp only [List.length_map, List.length_range] at this
  omega

/-- The next number is the first of the candidates that no record carries (R4). -/
theorem nextNumber_spec (b : CallBook) (h : b.calls.length ≤ 96) :
    ∃ k ≤ 96, b.nextNumber = numberAfter b.counter k ∧ b.nextNumber ∉ b.calls.map Call.number ∧
      ∀ j < k, numberAfter b.counter j ∈ b.calls.map Call.number := by
  have hf : ∃ n, ((List.range 97).map (numberAfter b.counter)).find?
      (fun n => !(b.calls.map Call.number).contains n) = some n := by
    obtain ⟨n, hn, hfree⟩ := exists_free_number b h
    refine Option.isSome_iff_exists.mp (List.find?_isSome.mpr ⟨n, hn, ?_⟩)
    simpa using hfree
  obtain ⟨n, hn⟩ := hf
  have hnext : b.nextNumber = n := by
    unfold CallBook.nextNumber
    dsimp only
    rw [hn]
    rfl
  obtain ⟨hfree, i, hi, rfl, hj⟩ := List.find?_eq_some_iff_getElem.mp hn
  simp only [List.length_map, List.length_range] at hi
  rw [hnext]
  refine ⟨i, by omega, by simp, by simpa using hfree, fun j hji => ?_⟩
  have := hj j hji
  simpa using this

/-- Settles O15, by the first candidate that no record carries. -/
theorem nextNumberIsTheFirstFreeOne : Obligations.NextNumberIsTheFirstFreeOne :=
  fun b h => nextNumber_spec b h

theorem nextNumber_free {b : CallBook} (h : b.calls.length ≤ 96) : ∀ c ∈ b.calls, c.number ≠ b.nextNumber := by
  obtain ⟨k, -, -, hn, -⟩ := nextNumber_spec b h
  exact fun c hc e => hn (e ▸ List.mem_map_of_mem hc)

theorem nextNumber_range {b : CallBook} (h : b.calls.length ≤ 96) : 1 ≤ b.nextNumber ∧ b.nextNumber ≤ 65535 := by
  obtain ⟨k, -, hk, -⟩ := nextNumber_spec b h
  rw [hk]
  unfold numberAfter
  omega

/-! ### Records of the book -/

theorem insertCall_ascending {c : Call} {cs : List Call} (h : (cs.map Call.number).Pairwise (· < ·))
    (hn : ∀ x ∈ cs, x.number ≠ c.number) : ((insertCall c cs).map Call.number).Pairwise (· < ·) := by
  induction cs with
  | nil => exact List.pairwise_singleton _ _
  | cons x xs ih =>
    rw [List.map_cons, List.pairwise_cons] at h
    obtain ⟨hx, hxs⟩ := h
    unfold insertCall
    split
    · next hlt =>
      rw [List.map_cons, List.map_cons, List.pairwise_cons]
      refine ⟨fun n hm => ?_, List.pairwise_cons.mpr ⟨hx, hxs⟩⟩
      rcases List.mem_cons.mp hm with rfl | hm
      · exact hlt
      · exact hlt.trans (hx n hm)
    · next hge =>
      rw [List.map_cons, List.pairwise_cons]
      refine ⟨fun n hm => ?_, ih hxs fun y hy => hn y (List.mem_cons_of_mem _ hy)⟩
      obtain ⟨y, hy, rfl⟩ := List.mem_map.mp hm
      rcases mem_insertCall.mp hy with rfl | hy
      · exact Nat.lt_of_le_of_ne (Nat.le_of_not_lt hge) (hn x List.mem_cons_self)
      · exact hx _ (List.mem_map_of_mem hy)

/-- With ascending numbers a record of the book is the one its number names (R1). -/
theorem State.BookSound.findCall {s : State} (h : s.BookSound) {c : Call} (hc : c ∈ s.book.calls) :
    s.findCall c.number = some c := by
  cases hf : s.findCall c.number with
  | none => exact absurd ⟨c, hc, rfl⟩ (mt (s.findCall_ne_none_iff c.number).mpr (not_not.mpr hf))
  | some x =>
    have hnd : (s.book.calls.map Call.number).Nodup := h.ascending.imp Nat.ne_of_lt
    rw [List.inj_on_of_nodup_map hnd (State.findCall_mem hf) hc (State.findCall_number hf)]

/-- What a closing order says, by the numbers of the book (R5). -/
theorem State.BookSound.closed_iff {s : State} (h : s.BookSound) (n : Nat) :
    n ∈ s.book.closedOrder ↔ ∃ c, s.findCall n = some c ∧ c.state = .closed := by
  rw [h.closed n]
  constructor
  · rintro ⟨c, hc, rfl, hs⟩
    exact ⟨c, h.findCall hc, hs⟩
  · rintro ⟨c, hc, hs⟩
    exact ⟨c, State.findCall_mem hc, State.findCall_number hc, hs⟩

theorem State.BookSound.pools' {s : State} (h : s.BookSound) : s.PoolsSound :=
  fun k => ⟨(h.pools k).count, (h.pools k).distinct⟩

/-- A change that leaves the records, the closing order and the pools alone, and neither begins a load nor sends
another frame. -/
theorem State.BookSound.congr {s t : State} (h : s.BookSound) (hc : t.book.calls = s.book.calls)
    (ho : t.book.closedOrder = s.book.closedOrder) (hp : ∀ k, (t.pool k).Sound)
    (hf : ∀ f n, t.link.sending = some f → f.frees = some n → n ∈ s.book.closedOrder)
    (hs : t.link.state = .starting → s.link.state = .starting ∧ (s.book.points = [] → t.book.points = [])) :
    t.BookSound where
  capacity := hc ▸ h.capacity
  ascending := hc ▸ h.ascending
  range := hc ▸ h.range
  closedOnce := ho ▸ h.closedOnce
  closed := fun n => by rw [ho, hc]; exact h.closed n
  frees := fun f n h1 h2 => ho ▸ hf f n h1 h2
  calls := hc ▸ h.calls
  pools := hp
  starting := fun e => by
    obtain ⟨e, hpt⟩ := hs e
    obtain ⟨h1, h2⟩ := h.starting e
    exact ⟨hc ▸ h1, hpt h2⟩

/-- A change of none of the blocks that the soundness of the book rests on. -/
theorem State.BookSound.of_book {s t : State} (h : s.BookSound) (hb : t.book = s.book)
    (hp : t.registry.pools = s.registry.pools) (hf : ∀ f, t.link.sending = some f → s.link.sending = some f)
    (hs : t.link.state = .starting → s.link.state = .starting) : t.BookSound :=
  h.congr (by rw [hb]) (by rw [hb]) (fun k => by unfold State.pool; rw [hp]; exact h.pools k)
    (fun f n h1 h2 => h.frees f n (hf f h1) h2) fun e => ⟨hs e, fun e => by rw [hb]; exact e⟩

/-- The points, the presses and the counter take no part but for the start-up load. -/
theorem State.BookSound.setBook {s : State} (h : s.BookSound) (b : CallBook) (hc : b.calls = s.book.calls)
    (ho : b.closedOrder = s.book.closedOrder) (hp : s.book.points = [] → b.points = []) : (s.setBook b).BookSound :=
  h.congr hc ho h.pools h.frees fun e => ⟨e, hp⟩

theorem mem_replaceCall {c x : Call} {cs : List Call} (h : x ∈ replaceCall c cs) :
    x = c ∨ x ∈ cs ∧ x.number ≠ c.number := by
  obtain ⟨y, hy, rfl⟩ := List.mem_map.mp h
  split
  · exact .inl rfl
  · next hn => exact .inr ⟨hy, hn⟩

/-- A record written back, sound and open or closed as it was. -/
theorem State.BookSound.putCall {s : State} (h : s.BookSound) {c c' : Call} (found : s.findCall c.number = some c)
    (hn : c'.number = c.number) (hcl : c'.state = .closed ↔ c.state = .closed) (hs : c'.Sound) :
    (s.putCall c c').BookSound where
  capacity := by
    rw [State.putCall_book]
    have := congrArg List.length (replaceCall_numbers c' s.book.calls)
    simp only [List.length_map] at this
    show (replaceCall c' s.book.calls).length ≤ _
    rw [this]
    exact h.capacity
  ascending := by
    rw [State.putCall_book]
    show ((replaceCall c' s.book.calls).map Call.number).Pairwise _
    rw [replaceCall_numbers]
    exact h.ascending
  range := fun x hx => by
    rw [State.putCall_book] at hx
    rcases mem_replaceCall hx with rfl | ⟨hx, -⟩
    · rw [hn]; exact h.range c (State.findCall_mem found)
    · exact h.range x hx
  closedOnce := by rw [State.putCall_book]; exact h.closedOnce
  closed := fun n => by
    rw [State.putCall_book]
    refine (h.closed n).trans ⟨?_, ?_⟩
    · rintro ⟨x, hx, rfl, hst⟩
      refine ⟨if x.number = c'.number then c' else x, List.mem_map_of_mem hx, ?_⟩
      split
      · next e =>
        rw [hn] at e
        have hxc : x = c := Option.some.inj ((h.findCall hx).symm.trans (e ▸ found))
        subst hxc
        exact ⟨hn, hcl.mpr hst⟩
      · exact ⟨rfl, hst⟩
    · rintro ⟨x, hx, rfl, hst⟩
      rcases mem_replaceCall hx with rfl | ⟨hx, -⟩
      · exact ⟨c, State.findCall_mem found, hn.symm, hcl.mp hst⟩
      · exact ⟨x, hx, rfl, hst⟩
  frees := fun f n h1 h2 => by rw [State.putCall_book]; exact h.frees f n (by simpa using h1) h2
  calls := fun x hx => by
    rw [State.putCall_book] at hx
    rcases mem_replaceCall hx with rfl | ⟨hx, -⟩
    · exact hs
    · exact h.calls x hx
  pools := fun k => by rw [State.putCall_pool]; exact h.pools k
  starting := fun e => by
    obtain ⟨h1, h2⟩ := h.starting (by simpa using e)
    rw [State.putCall_book]
    exact ⟨by simp [h1, replaceCall], h2⟩

theorem State.BookSound.post {s : State} (h : s.BookSound) (k : NoticeKey) : (s.post k).BookSound :=
  h.of_book (by simp) (by simp) (fun f => by simp [State.post_link]) (by simp [State.post_link])

/-- A change of a call that leaves it sound, and open or closed as it was. -/
theorem State.BookSound.changeCall {s : State} (h : s.BookSound) (n : Nat) (f : Call → Call)
    (hf : ∀ c, s.findCall n = some c → (f c).number = c.number ∧ ((f c).state = .closed ↔ c.state = .closed) ∧
      (c.Sound → (f c).Sound)) : (s.changeCall n f).BookSound := by
  unfold State.changeCall
  cases hc : s.findCall n with
  | none => exact h
  | some c =>
    obtain ⟨h1, h2, h3⟩ := hf c hc
    exact (h.putCall (by rw [State.findCall_number hc, hc]) h1 h2 (h3 (h.calls c (State.findCall_mem hc)))).post _

theorem EngineStep.bookSound {own : Nat → Prop} {s t : State} (e : EngineStep own s t) (h : s.BookSound) :
    t.BookSound := by
  cases e with
  | post k => exact h.post k
  | call c c' found st =>
    refine h.putCall found st.same.number ⟨fun hc => ?_, fun hc => ?_⟩
      (st.sound h.pools' (h.calls c (State.findCall_mem found)))
    · by_contra ho
      exact st.opened ho hc
    · rw [st.shut hc]; exact hc
  | pointer p k place =>
    exact h.congr rfl rfl ((EngineStep.pointer (own := own) s p k place).one.poolSound h.pools) h.frees
      fun e => ⟨e, id⟩
  | _ => exact h.of_book rfl rfl (fun _ h => h) id

/-- Escalation keeps the book sound (R1 to R7, R35, R55). -/
theorem Engine.bookSound {own : Nat → Prop} {s t : State} (e : Engine own s t) (h : s.BookSound) : t.BookSound := by
  induction e with
  | refl => exact h
  | tail _ k ih => exact k.bookSound ih

/-! ### Raising and evicting -/

theorem newCall_sound (n : Nat) (src : CallSource) (o : Nat) (cls : Cls) (lad : Nat) (text : Text)
    (pref : Option Nat) (now : Tick) : (newCall n src o cls lad text pref now).Sound := by
  constructor <;> simp [newCall, Config.maxTargets]

/-- A record with a free number, in a book with a free slot (R1, R4). -/
theorem State.BookSound.addCall {s : State} (h : s.BookSound) {c : Call} (hs : s.link.state ≠ .starting)
    (room : s.book.calls.length < Config.maxCalls) (fresh : ∀ x ∈ s.book.calls, x.number ≠ c.number)
    (range : 1 ≤ c.number ∧ c.number ≤ 65535) (sound : c.Sound) (opened : c.state ≠ .closed) :
    (s.addCall c).BookSound := by
  rw [addCall_eq]
  refine State.BookSound.post (s := s.setBook (s.book.add c)) ?_ _
  refine ⟨?_, insertCall_ascending h.ascending fresh, fun x hx => ?_, h.closedOnce, fun n => ?_, h.frees,
    fun x hx => ?_, h.pools, fun e => absurd e hs⟩
  · show (insertCall c s.book.calls).length ≤ _
    rw [(insertCall_perm c s.book.calls).length_eq]
    exact room
  · rcases mem_insertCall.mp hx with rfl | hx
    · exact range
    · exact h.range x hx
  · refine (h.closed n).trans ⟨?_, ?_⟩
    · rintro ⟨x, hx, hn⟩
      exact ⟨x, mem_insertCall.mpr (.inr hx), hn⟩
    · rintro ⟨x, hx, hn, hst⟩
      rcases mem_insertCall.mp hx with rfl | hx
      · exact absurd hst opened
      · exact ⟨x, hx, hn, hst⟩
  · rcases mem_insertCall.mp hx with rfl | hx
    · exact sound
    · exact h.calls x hx

/-- What a number names once a record with a free number was added. -/
theorem addCall_findCall {s : State} {c : Call} (fresh : ∀ x ∈ s.book.calls, x.number ≠ c.number) (n : Nat) :
    (s.addCall c).findCall n = if n = c.number then some c else s.findCall n := by
  rw [addCall_eq, State.post_findCall]
  show (insertCall c s.book.calls).find? _ = if n = c.number then some c else s.book.calls.find? _
  generalize s.book.calls = cs at fresh
  induction cs with
  | nil =>
    by_cases hn : n = c.number
    · simp [insertCall, hn]
    · simp [insertCall, hn, Ne.symm hn]
  | cons x xs ih =>
    have ih := ih fun y hy => fresh y (List.mem_cons_of_mem _ hy)
    have hx := fresh x List.mem_cons_self
    unfold insertCall
    by_cases hn : n = c.number
    · subst hn
      split
      · simp
      · simpa [hx] using ih
    · split
      · simp [Ne.symm hn]
      · by_cases hxn : x.number = n <;> simp_all

/-- The call just added is PAGING when it was added so. -/
theorem pagingAt_addCall {s : State} {c : Call} (fresh : ∀ x ∈ s.book.calls, x.number ≠ c.number)
    (hp : c.state = .paging) : (s.addCall c).PagingAt c.number := by
  intro x hx
  rw [addCall_findCall fresh, if_pos rfl] at hx
  exact Option.some.inj hx ▸ hp

theorem State.BookSound.without {s : State} (h : s.BookSound) (m : Nat) : (s.without m).BookSound where
  capacity := (List.length_filter_le _ _).trans h.capacity
  ascending := h.ascending.sublist (List.filter_sublist.map _)
  range := fun c hc => h.range c (List.mem_of_mem_filter hc)
  closedOnce := h.closedOnce.sublist List.filter_sublist
  closed := fun n => by
    show n ∈ s.book.closedOrder.filter _ ↔ ∃ c ∈ s.book.calls.filter _, _
    rw [List.mem_filter, h.closed n]
    constructor
    · rintro ⟨⟨c, hc, rfl, hs⟩, hn⟩
      exact ⟨c, List.mem_filter.mpr ⟨hc, hn⟩, rfl, hs⟩
    · rintro ⟨c, hc, rfl, hs⟩
      obtain ⟨hc, hn⟩ := List.mem_filter.mp hc
      exact ⟨⟨c, hc, rfl, hs⟩, hn⟩
  frees := fun f n h1 h2 => by
    obtain ⟨g, hg, rfl⟩ := Option.map_eq_some_iff.mp h1
    split at h2
    · exact nomatch h2
    · next hne =>
      refine List.mem_filter.mpr ⟨h.frees g n hg h2, ?_⟩
      rw [decide_eq_true_eq]
      rintro rfl
      exact hne h2
  calls := fun c hc => h.calls c (List.mem_of_mem_filter hc)
  pools := h.pools
  starting := fun e => by
    obtain ⟨h1, h2⟩ := h.starting e
    refine ⟨?_, h2⟩
    show s.book.calls.filter _ = []
    rw [h1]; rfl

/-- Taking out a record of the book frees a slot. -/
theorem without_length_lt {s : State} {c : Call} (hc : c ∈ s.book.calls) :
    (s.without c.number).book.calls.length < s.book.calls.length :=
  List.length_filter_lt_length_iff_exists.mpr ⟨c, hc, by simp⟩

/-- The slot obtained: a sound book with room, the rest of the state as it was (R5). -/
theorem obtainSlot_sound {s u : State} (h : s.BookSound) (hu : s.obtainSlot = some u) :
    u.BookSound ∧ u.book.calls.length < Config.maxCalls ∧ u.link.state = s.link.state ∧
      u.book.points = s.book.points := by
  rcases obtainSlot_cases hu with ⟨hl, rfl⟩ | ⟨n, rest, -, ho, rfl⟩
  · exact ⟨h, hl, rfl, rfl⟩
  · refine ⟨h.without n, ?_, rfl, rfl⟩
    obtain ⟨c, hc, rfl, -⟩ := (h.closed n).mp (by rw [ho]; exact List.mem_cons_self)
    exact (without_length_lt hc).trans_le h.capacity

/-- A call raised in a book with room: its record new, and its step 1 started (R8, R53). -/
theorem engine_raise {u : State} (h : u.book.calls.length ≤ 96) {c : Call} (hn : c.number = u.book.nextNumber)
    (hp : c.state = .paging) (pref : Option Nat) :
    Engine (onlyCall c.number) (u.addCall c) ((u.addCall c).startCall c.number pref) :=
  engine_startCall _ _ pref (pagingAt_addCall (hn ▸ nextNumber_free h) hp)

theorem State.BookSound.addNew {u : State} (h : u.BookSound) (room : u.book.calls.length < Config.maxCalls)
    (hs : u.link.state ≠ .starting) {src : CallSource} {o lad : Nat} {cls : Cls} {text : Text} {pref : Option Nat} :
    (u.addCall (newCall u.book.nextNumber src o cls lad text pref u.clock)).BookSound :=
  h.addCall hs room (nextNumber_free h.capacity) (nextNumber_range h.capacity) (newCall_sound _ _ _ _ _ _ _ _)
    nofun

theorem State.BookSound.setPoint {s : State} (h : s.BookSound) (st i : Nat) (x : PointState) :
    (s.setPoint st i x).BookSound :=
  h.setBook _ rfl rfl fun e => by simp [e]

/-- The state of a point takes no part in what the engine does of a call. -/
theorem State.PagingAt.setPoint {s : State} {n : Nat} (h : s.PagingAt n) (st i : Nat) (x : PointState) :
    (s.setPoint st i x).PagingAt n := h

theorem engine_raiseFromPoint {u : State} (h : u.book.calls.length ≤ 96) (p : CallPoint) :
    Engine (onlyCall u.book.nextNumber) ((u.addCall (u.pressCall p)).setPoint p.station p.input
      (.opened u.book.nextNumber)) (u.raiseFromPoint p) :=
  engine_startCall _ _ none
    ((pagingAt_addCall (c := u.pressCall p) (nextNumber_free h) rfl).setPoint _ _ _)

theorem State.BookSound.raiseFromPoint {u : State} (h : u.BookSound) (room : u.book.calls.length < Config.maxCalls)
    (hs : u.link.state ≠ .starting) (p : CallPoint) : (u.raiseFromPoint p).BookSound :=
  (engine_raiseFromPoint h.capacity p).bookSound ((h.addNew room hs).setPoint _ _ _)

/-- A call point that is there shows that the load has ended (R24, entry 12). -/
theorem State.BookSound.started {s : State} (h : s.BookSound) {st i : Nat} {p : CallPoint}
    (hp : s.findPoint st i = some p) : s.link.state ≠ .starting := by
  intro e
  have hm := List.mem_of_find?_eq_some hp
  rw [(h.starting e).2] at hm
  exact List.not_mem_nil hm

/-! ### Closing -/

theorem State.BookSound.changeCrew {s : State} (h : s.BookSound) (c : Nat) (x : Crew) :
    (s.changeCrew c x).BookSound :=
  State.BookSound.post (s := s.putCrew c x) (h.of_book rfl rfl (fun _ h => h) id) _

theorem State.BookSound.leaveCrew? {s : State} (h : s.BookSound) (n : Nat) (a : Option Nat) :
    (s.leaveCrew? n a).BookSound := by
  cases a with
  | none => exact h
  | some a => exact h.changeCrew a _

theorem closedFor_sound {c : Call} (h : c.Sound) (r : CloseReason) (now : Tick) : (c.closedFor r now).Sound := by
  constructor <;> simp [Call.closedFor, h.targetCount, h.targetsDistinct]
  exact h.declined

@[simp] theorem State.leaveCrew?_findCall (s : State) (n m : Nat) (a : Option Nat) :
    (s.leaveCrew? n a).findCall m = s.findCall m := by
  cases a with
  | none => rfl
  | some a => exact State.changeCrew_findCall _ _ _ _

/-- What every number names once a call was marked closed. -/
theorem markClosed_findCall (s : State) (r : CloseReason) (n m : Nat) :
    (s.markClosed r n).findCall m = (s.findCall m).map (fun x => if m = n then x.closedFor r s.clock else x) :=
  State.changeCall_findCall s n m _ fun _ => rfl

theorem changeCall_book (s : State) (n : Nat) (f : Call → Call) :
    (s.changeCall n f).book = { s.book with calls := (s.changeCall n f).book.calls } := by
  unfold State.changeCall
  split
  · rfl
  · rw [State.post_book, State.putCall_book]

/-- An open call marked closed stands last in the closing order (R5, R20). -/
theorem State.BookSound.markClosed {s : State} (h : s.BookSound) (r : CloseReason) {c : Call}
    (hc : s.findCall c.number = some c) (ho : c.state ≠ .closed) : (s.markClosed r c.number).BookSound := by
  have hcm := State.findCall_mem hc
  have hnot : c.number ∉ s.book.closedOrder := fun hm => by
    obtain ⟨x, hx, hs⟩ := (h.closed_iff _).mp hm
    exact ho (Option.some.inj (hc.symm.trans hx) ▸ hs)
  have e : (s.markClosed r c.number).book = { s.book with
      calls := replaceCall (c.closedFor r s.clock) s.book.calls
      closedOrder := s.book.closedOrder ++ [c.number] } := by
    unfold State.markClosed State.changeCall
    simp only [hc, State.setBook_book, State.post_book, State.putCall_book]
  have el : (s.markClosed r c.number).link.state = s.link.state ∧
      (s.markClosed r c.number).link.sending = s.link.sending := by
    unfold State.markClosed State.changeCall
    simp only [hc, State.setBook_link, State.post_link, State.putCall_link, and_self]
  have ep : ∀ k, (s.markClosed r c.number).pool k = s.pool k := fun k => State.changeCall_pool _ _ _ _
  refine ⟨?_, ?_, fun x hx => ?_, ?_, fun n => ?_, fun f n h1 h2 => ?_, fun x hx => ?_, fun k => ?_, fun es => ?_⟩
  · rw [e]
    have := congrArg List.length (replaceCall_numbers (c.closedFor r s.clock) s.book.calls)
    simp only [List.length_map] at this
    show (replaceCall _ s.book.calls).length ≤ _
    rw [this]; exact h.capacity
  · rw [e]
    show ((replaceCall _ s.book.calls).map Call.number).Pairwise _
    rw [replaceCall_numbers]; exact h.ascending
  · rw [e] at hx
    rcases mem_replaceCall hx with rfl | ⟨hx, -⟩
    · exact h.range c hcm
    · exact h.range x hx
  · rw [e]
    exact List.nodup_append.mpr ⟨h.closedOnce, List.nodup_singleton _,
      by simpa using fun a ha (e : a = c.number) => hnot (e ▸ ha)⟩
  · rw [e]
    show n ∈ s.book.closedOrder ++ [c.number] ↔ ∃ x ∈ replaceCall _ s.book.calls, _
    rw [List.mem_append, h.closed n, List.mem_singleton]
    constructor
    · rintro (⟨x, hx, rfl, hs⟩ | rfl)
      · refine ⟨x, List.mem_map.mpr ⟨x, hx, if_neg fun en => ho ?_⟩, rfl, hs⟩
        exact Option.some.inj ((h.findCall hx).symm.trans (en ▸ hc)) ▸ hs
      · exact ⟨c.closedFor r s.clock, List.mem_map.mpr ⟨c, hcm, if_pos rfl⟩, rfl, rfl⟩
    · rintro ⟨x, hx, rfl, hs⟩
      rcases mem_replaceCall hx with rfl | ⟨hx, -⟩
      · exact .inr rfl
      · exact .inl ⟨x, hx, rfl, hs⟩
  · rw [e]
    exact List.mem_append_left _ (h.frees f n (el.2 ▸ h1) h2)
  · rw [e] at hx
    rcases mem_replaceCall hx with rfl | ⟨hx, -⟩
    · exact closedFor_sound (h.calls c hcm) r s.clock
    · exact h.calls x hx
  · rw [ep]; exact h.pools k
  · obtain ⟨h1, -⟩ := h.starting (el.1 ▸ es)
    rw [h1] at hcm
    exact absurd hcm List.not_mem_nil

theorem State.BookSound.settlePoint {s : State} (h : s.BookSound) (c : Call) : (s.settlePoint c).BookSound := by
  unfold State.settlePoint
  split
  · exact h
  · split
    · exact h
    · split
      · exact h.setPoint _ _ _
      · exact h

theorem evictOldest_sound {s : State} (h : s.BookSound) (ho : s.book.closedOrder ≠ []) :
    s.evictOldest.BookSound ∧ s.evictOldest.book.calls.length < Config.maxCalls := by
  unfold State.evictOldest
  cases hc : s.book.closedOrder with
  | nil => exact absurd hc ho
  | cons n rest =>
    obtain ⟨c, hm, rfl, -⟩ := (h.closed n).mp (by rw [hc]; exact List.mem_cons_self)
    exact ⟨h.without _, (without_length_lt hm).trans_le h.capacity⟩

theorem State.BookSound.takePress {s : State} (h : s.BookSound) (ho : s.book.closedOrder ≠ [])
    (rest : List (Nat × Nat)) : (s.takePress rest).BookSound :=
  (evictOldest_sound h ho).1.setBook _ rfl rfl id

/-- A waiting press is served in a slot that an eviction frees (R17). -/
theorem State.BookSound.servePending {s : State} (h : s.BookSound) (ho : s.book.closedOrder ≠ []) :
    s.servePending.BookSound := by
  cases hp : s.book.pendingPresses with
  | nil => rw [servePending_nil s hp]; exact h
  | cons key rest =>
    have ht := h.takePress ho rest
    rw [servePending_cons s key rest hp]
    split
    · exact ht
    · next p hf => exact ht.raiseFromPoint (evictOldest_sound h ho).2 (ht.started hf) p

@[simp] theorem settlePoint_calls (s : State) (c : Call) :
    (s.settlePoint c).book.calls = s.book.calls ∧ (s.settlePoint c).book.closedOrder = s.book.closedOrder ∧
      (s.settlePoint c).book.pendingPresses = s.book.pendingPresses := by
  unfold State.settlePoint
  split
  · exact ⟨rfl, rfl, rfl⟩
  · split
    · exact ⟨rfl, rfl, rfl⟩
    · split <;> exact ⟨rfl, rfl, rfl⟩

/-- The closing order after the record was marked closed. -/
theorem markClosed_closedOrder (s : State) (r : CloseReason) (n : Nat) :
    (s.markClosed r n).book.closedOrder = s.book.closedOrder ++ [n] := by
  unfold State.markClosed
  rw [State.setBook_book, changeCall_book]

theorem engine_sendCloseNotes (s : State) (r : CloseReason) (c : Call) :
    Engine noCall s (s.sendCloseNotes r c) :=
  (EngineStep.withdraw s c.number).one.trans (engine_sendToCrews _ _ _)

/-- Sending close notes may widen the call and changes nothing else of it. -/
theorem sendCloseNotes_found (s : State) (r : CloseReason) (c : Call) (hc : s.findCall c.number = some c) :
    ∃ x, (s.sendCloseNotes r c).findCall c.number = some x ∧ x.core = c.core :=
  (engine_sendCloseNotes s r c).frame.found id hc

theorem State.BookSound.closeRecord {s : State} (h : s.BookSound) (r : CloseReason) {c : Call}
    (hc : s.findCall c.number = some c) (ho : c.state ≠ .closed) : (s.closeRecord r c).BookSound := by
  obtain ⟨x, hx, hcore⟩ := sendCloseNotes_found s r c hc
  have hn : x.number = c.number := State.findCall_number hx
  have hst : x.core.state = c.core.state := by rw [hcore]
  have hs : x.state ≠ .closed := (show x.state = c.state from hst) ▸ ho
  rw [closeRecord_eq, ← hn]
  refine (((engine_sendCloseNotes s r c).bookSound h).leaveCrew? _ _).markClosed r ?_ hs
  rw [State.leaveCrew?_findCall, hn, hx]

theorem State.BookSound.closeCall {s : State} (h : s.BookSound) (r : CloseReason) {c : Call}
    (hc : s.findCall c.number = some c) (ho : c.state ≠ .closed) : (s.closeCall r c.number).BookSound := by
  rw [closeCall_eq s r _ c hc]
  refine ((h.closeRecord r hc ho).settlePoint c).servePending ?_
  rw [(settlePoint_calls _ c).2.1, closeRecord_eq, markClosed_closedOrder]
  simp

/-! ### Accepting, releasing, loading -/

theorem acceptedBy_sound {c : Call} (h : c.Sound) (hw : c.state = .paging ∨ c.state = .exhausted) (crew : Nat)
    (heard now : Tick) (w : Call → Nat) : (c.acceptedBy crew heard now w).Sound := by
  have hr := h.reason
  refine ⟨?_, ?_, ?_, ?_, ?_, ?_, h.targetCount, h.targetsDistinct, h.declined⟩
  all_goals simp [Call.acceptedBy]
  rcases hw with e | e <;> simpa [e] using hr

theorem State.BookSound.acceptCall {s : State} (h : s.BookSound) {c : Call} (hc : s.findCall c.number = some c)
    (hw : c.state = .paging ∨ c.state = .exhausted) (crew : Nat) (heard : Tick) :
    (s.acceptCall c crew heard).BookSound := by
  have hcl : c.state ≠ .closed := by rcases hw with e | e <;> simp [e]
  rw [acceptCall_eq]
  refine (engine_sendToCrews (own := noCall) _ _ _).bookSound
    ((EngineStep.withdraw (own := noCall) _ c.number).bookSound ?_)
  refine State.BookSound.changeCrew (h.changeCall _ _ fun x hx => ?_) crew _
  obtain rfl := Option.some.inj (hc.symm.trans hx)
  exact ⟨rfl, ⟨nofun, fun e => absurd e hcl⟩, fun hs => acceptedBy_sound hs hw _ _ _ _⟩

theorem State.BookSound.releaseCrew {s : State} (h : s.BookSound) {c : Call} (hc : s.findCall c.number = some c)
    (hs : c.state = .accepted) : (s.releaseCrew c).BookSound := by
  rw [releaseCrew_eq]
  refine (h.changeCall _ _ fun x hx => ?_).leaveCrew? _ _
  obtain rfl := Option.some.inj (hc.symm.trans hx)
  refine ⟨rfl, ⟨nofun, fun e => absurd (hs.symm.trans e) nofun⟩, fun k => ?_⟩
  have hr := k.reason
  refine ⟨?_, ?_, ?_, ?_, ?_, ?_, k.targetCount, k.targetsDistinct, k.declined⟩
  all_goals simp [Call.released]
  simpa [hs] using hr

theorem pressed_sound {c : Call} (h : c.Sound) : c.pressed.Sound :=
  ⟨h.accepting, h.reason, h.arrival, h.deadline, h.nextRepeat, h.beacon, h.targetCount, h.targetsDistinct, h.declined⟩

theorem loadedPool_sound {l : List Nat} (h : poolInRange l = true) : (loadedPool l).Sound := by
  simp only [poolInRange, distinct, Bool.and_eq_true, decide_eq_true_eq] at h
  obtain ⟨⟨hl, -⟩, hd⟩ := h
  exact ⟨hl, hd, Nat.le_refl _, fun hne => List.length_pos_of_ne_nil hne⟩

theorem install_pool (s : State) (img : Image) (k : Nat) :
    (s.install img).pool k = loadedPool (row img.pools k []) := row_map loadedPool img.pools k []

/-- The end of the load installs sound pools in an empty book (R24, R180). -/
theorem State.BookSound.load {s : State} (h : s.BookSound) {img : Image} {r : LoadResult}
    (hc : img.consistent = true) :
    ((s.install img).setStore { (s.install img).store with loadResult := some r }).enterOnline.BookSound := by
  refine h.congr (by simp [State.enterOnline, State.armSilence, State.install])
    (by simp [State.enterOnline, State.armSilence, State.install]) (fun k => ?_) (fun f n h1 h2 => ?_) fun e => ?_
  · have : ((s.install img).setStore { (s.install img).store with loadResult := some r }).enterOnline.pool k =
        (s.install img).pool k := by simp [State.enterOnline, State.armSilence]
    rw [this, install_pool]
    exact loadedPool_sound
      ((forall_row_iff (P := fun l => poolInRange l = true) img.pools [] (by decide)).mp
        ((consistent_iff img).mp hc).pools k)
  · refine h.frees f n ?_ h2
    simpa [State.enterOnline, State.armSilence, State.post_link, State.install] using h1
  · simp [State.enterOnline, State.armSilence, State.post_link] at e

/-! ### Every move -/

/-- Every operation taken whole keeps the call book sound. -/
theorem Move.bookSound {s t : State} (m : Move s t) (h : s.BookSound) : t.BookSound := by
  cases m with
  | other _ q => exact h.of_book q.book q.pools q.sending q.starting
  | escalate _ e => exact e.bookSound h
  | pool p l hl =>
    refine h.congr rfl rfl (fun k => ?_) h.frees fun e => ⟨e, id⟩
    rw [State.putPool_pool_eq]
    split
    · exact loadedPool_sound hl
    · exact h.pools k
  | raise u c pref slot running origin cls lad text new =>
    subst new
    obtain ⟨hu, room, hst, -⟩ := obtainSlot_sound h slot
    exact (engine_raise hu.capacity rfl rfl pref).bookSound (hu.addNew room (hst ▸ running))
  | press u p slot found _ =>
    obtain ⟨hu, room, hst, -⟩ := obtainSlot_sound h slot
    exact hu.raiseFromPoint room (hst ▸ h.started found) p
  | pressWaits p _ _ _ => exact (h.setPoint _ _ _).setBook _ rfl rfl id
  | pressed n p _ _ => exact h.changeCall n _ fun c _ => ⟨rfl, Iff.rfl, pressed_sound⟩
  | close r c found opened => exact h.closeCall r found opened
  | accept c crew heard found waits _ _ => exact h.acceptCall found waits crew heard
  | release c found hs => exact h.releaseCrew found hs
  | define st i l cls text running _ _ =>
    cases hf : s.findPoint st i with
    | none =>
      rw [definePoint_new s st i l cls text hf]
      exact h.congr rfl rfl h.pools h.frees fun e => absurd e running
    | some p =>
      rw [definePoint_known s st i l cls text p hf]
      exact h.setBook _ rfl rfl fun e => by simp [e]
  | undefine p _ _ => exact h.setBook _ rfl rfl fun e => by simp [e]
  | load img r _ hc => exact h.load hc
  | sent f hcts _ =>
    have h0 : (s.setLink { s.link with sending := none, hcts := hcts }).BookSound :=
      h.of_book rfl rfl (fun _ e => nomatch e) id
    rcases freeSent_eq (s.setLink { s.link with sending := none, hcts := hcts }) f with ⟨-, e⟩ | ⟨n, -, e⟩
    · rw [e]; exact h0
    · rw [e]; exact h0.without n

theorem Moves.bookSound {s t : State} (m : Moves s t) (h : s.BookSound) : t.BookSound := by
  induction m with
  | refl => exact h
  | tail _ k ih => exact k.bookSound ih

/-- A frame that starts frees a CLOSED record at most (R7, R171). -/
theorem noticeFrame_frees {s : State} {k : NoticeKey} {f : Frame} {n : Nat} (h : s.BookSound)
    (hf : s.noticeFrame k = some f) (hn : f.frees = some n) : n ∈ s.book.closedOrder := by
  cases k with
  | call m =>
    unfold State.noticeFrame at hf
    dsimp only at hf
    split at hf
    · cases hf
    · next c hc =>
      cases hf
      dsimp only at hn
      split at hn
      · next hs =>
        cases hn
        exact (h.closed_iff n).mpr ⟨c, hc, hs⟩
      · cases hn
  | _ =>
    cases hf
    cases hn

theorem State.BookSound.sendReady {s : State} (h : s.BookSound) : s.sendReady.BookSound := by
  have start : s.startFrame.BookSound := by
    rcases s.startFrame_cases with ⟨-, e⟩ | ⟨-, -, ⟨r, rest, -, e⟩ | ⟨k, ks, -, -, e⟩⟩
    · rwa [e]
    · rw [e]
      refine h.congr rfl rfl h.pools (fun f n h1 h2 => ?_) fun e => ⟨e, id⟩
      cases h1
      cases h2
    · rw [e]
      exact h.congr rfl rfl h.pools (fun f n h1 h2 => noticeFrame_frees h h1 h2) fun e => ⟨e, id⟩
  unfold State.sendReady
  split
  · exact start
  · exact h

/-- A run keeps the call book sound. -/
theorem Run.bookSound {s t : State} (r : Run s t) (h : s.BookSound) : t.BookSound := by
  induction r with
  | refl => exact h
  | still _ m _ ih => exact m.bookSound ih
  | event _ m ih => exact (m.bookSound ih).sendReady
  | reply _ m _ x ih =>
    exact State.BookSound.sendReady ((m.bookSound ih).of_book rfl rfl (fun _ h => h) id)

end Sys2Proof.Machine
end

section
/-!
SUPPORT. Every run keeps the call points and the waiting presses sound (R11, R14, R16, R17, R21), and with them O54.
-/

namespace Sys2Proof.Machine

/-! ### The entry of a key, and the open calls that entries raised -/

/-- The state of the entry of a key, if there is one. -/
def State.pointAt (s : State) (st i : Nat) : Option PointState := (s.findPoint st i).map CallPoint.state

/-- Call `n` is open and a press at the key raised it. -/
def State.OpenFrom (s : State) (n st i : Nat) : Prop :=
  ∃ c, s.findCall n = some c ∧ c.state ≠ .closed ∧ c.source = .callPoint st i

/-- The keys of a list of entries. -/
def pointKeys (ps : List CallPoint) : List (Nat × Nat) := ps.map fun p => (p.station, p.input)

/-- The call points and the list of the waiting presses, key by key; all of soundness but what a waiting press says of
the book. -/
structure State.PointsOk (s : State) : Prop where
  keys : (pointKeys s.book.points).Nodup
  opened : ∀ n st i, s.pointAt st i = some (.opened n) ↔ s.OpenFrom n st i
  pending : ∀ st i, (st, i) ∈ s.book.pendingPresses ↔ s.pointAt st i = some .pending
  once : s.book.pendingPresses.Nodup

/-- While a press waits there is neither a free slot nor a CLOSED record (R5, R17). -/
def State.WaitsFull (s : State) : Prop :=
  s.book.pendingPresses ≠ [] → s.book.calls.length = Config.maxCalls ∧ s.book.closedOrder = []

theorem find?_key_eq_some_iff {ps : List CallPoint} (h : (pointKeys ps).Nodup) (st i : Nat) (p : CallPoint) :
    ps.find? (fun p => decide (p.station = st ∧ p.input = i)) = some p ↔ p ∈ ps ∧ p.station = st ∧ p.input = i := by
  constructor
  · intro hf
    exact ⟨List.mem_of_find?_eq_some hf, by simpa using List.find?_some hf⟩
  · rintro ⟨hp, rfl, rfl⟩
    cases hq : ps.find? (fun q => decide (q.station = p.station ∧ q.input = p.input)) with
    | none => exact absurd (by simpa using List.find?_eq_none.mp hq p hp) (by simp : ¬ False)
    | some q =>
      have hk : q.station = p.station ∧ q.input = p.input := by simpa using List.find?_some hq
      rw [List.inj_on_of_nodup_map h (List.mem_of_find?_eq_some hq) hp (by simp [hk])]

theorem State.findPoint_eq_some_iff {s : State} (h : (pointKeys s.book.points).Nodup) (st i : Nat) (p : CallPoint) :
    s.findPoint st i = some p ↔ p ∈ s.book.points ∧ p.station = st ∧ p.input = i :=
  find?_key_eq_some_iff h st i p

theorem State.pointAt_eq_some_iff {s : State} (h : (pointKeys s.book.points).Nodup) (st i : Nat) (x : PointState) :
    s.pointAt st i = some x ↔ ∃ p ∈ s.book.points, p.station = st ∧ p.input = i ∧ p.state = x := by
  simp only [State.pointAt, Option.map_eq_some_iff, State.findPoint_eq_some_iff h, and_assoc]

theorem pointsSound_iff (s : State) : s.PointsSound ↔ s.PointsOk ∧ s.WaitsFull := by
  constructor
  · rintro ⟨keys, opened, raised, pending, once, waits⟩
    refine ⟨⟨keys, fun n st i => ?_, fun st i => ?_, once⟩, waits⟩
    · rw [State.pointAt_eq_some_iff keys]
      constructor
      · rintro ⟨p, hp, rfl, rfl, hs⟩
        exact opened p hp n hs
      · rintro ⟨c, hc, ho, hsrc⟩
        exact raised n c st i hc ho hsrc
    · rw [State.pointAt_eq_some_iff keys, pending]
  · rintro ⟨h, waits⟩
    refine ⟨h.keys, fun p hp n hs => ?_, fun n c st i hc ho hsrc => ?_, fun st i => ?_, h.once, waits⟩
    · exact (h.opened n _ _).mp ((State.pointAt_eq_some_iff h.keys _ _ _).mpr ⟨p, hp, rfl, rfl, hs⟩)
    · exact (State.pointAt_eq_some_iff h.keys _ _ _).mp ((h.opened n st i).mpr ⟨c, hc, ho, hsrc⟩)
    · rw [h.pending, State.pointAt_eq_some_iff h.keys]

/-! ### What keeps it -/

theorem State.pointAt_congr {s t : State} (h : t.book.points = s.book.points) (st i : Nat) :
    t.pointAt st i = s.pointAt st i := by
  unfold State.pointAt State.findPoint
  rw [h]

/-- Soundness speaks of the points, the list of presses and the open calls that points raised only. -/
theorem State.PointsOk.congr {s t : State} (h : s.PointsOk) (hp : t.book.points = s.book.points)
    (hq : t.book.pendingPresses = s.book.pendingPresses) (ho : ∀ n st i, t.OpenFrom n st i ↔ s.OpenFrom n st i) :
    t.PointsOk where
  keys := by rw [hp]; exact h.keys
  opened := fun n st i => by rw [State.pointAt_congr hp, h.opened, ho]
  pending := fun st i => by rw [State.pointAt_congr hp, hq, h.pending]
  once := by rw [hq]; exact h.once

theorem State.openFrom_congr {s t : State} (h : ∀ n, t.findCall n = s.findCall n) (n st i : Nat) :
    t.OpenFrom n st i ↔ s.OpenFrom n st i := by
  unfold State.OpenFrom
  rw [h]

/-- A change that leaves each record its source, and open or closed as it was. -/
theorem State.openFrom_of_map {s t : State} {n : Nat} (f : Call → Call) (ht : t.findCall n = (s.findCall n).map f)
    (hf : ∀ c, s.findCall n = some c → (f c).source = c.source ∧ ((f c).state = .closed ↔ c.state = .closed))
    (st i : Nat) : t.OpenFrom n st i ↔ s.OpenFrom n st i := by
  unfold State.OpenFrom
  rw [ht]
  cases hc : s.findCall n with
  | none => simp
  | some c => simp [hf c hc]

theorem State.openFrom_changeCall {s : State} {n : Nat} {f : Call → Call} (hn : ∀ c, (f c).number = c.number)
    (hf : ∀ c, s.findCall n = some c → (f c).source = c.source ∧ ((f c).state = .closed ↔ c.state = .closed))
    (m st i : Nat) : (s.changeCall n f).OpenFrom m st i ↔ s.OpenFrom m st i := by
  refine State.openFrom_of_map _ (State.changeCall_findCall s n m f hn) (fun c hc => ?_) st i
  split
  · next e => exact hf c (e ▸ hc)
  · exact ⟨rfl, Iff.rfl⟩

/-- What a move that changes neither points nor presses, nor which records are open and where they come from, nor the
number of records or the closing order, keeps. -/
structure State.SamePoints (s t : State) : Prop where
  points : t.book.points = s.book.points
  presses : t.book.pendingPresses = s.book.pendingPresses
  opened : ∀ n st i, t.OpenFrom n st i ↔ s.OpenFrom n st i
  count : t.book.calls.length = s.book.calls.length
  order : t.book.closedOrder = s.book.closedOrder

theorem State.SamePoints.ok {s t : State} (e : s.SamePoints t) (h : s.PointsOk) : t.PointsOk :=
  h.congr e.points e.presses e.opened

theorem State.SamePoints.full {s t : State} (e : s.SamePoints t) (h : s.WaitsFull) : t.WaitsFull := by
  unfold State.WaitsFull
  rw [e.presses, e.count, e.order]
  exact h

theorem State.SamePoints.trans {s t u : State} (a : s.SamePoints t) (b : t.SamePoints u) : s.SamePoints u :=
  ⟨b.points.trans a.points, b.presses.trans a.presses, fun n st i => (b.opened n st i).trans (a.opened n st i),
    b.count.trans a.count, b.order.trans a.order⟩

theorem State.SamePoints.of_book {s t : State} (h : t.book = s.book) : s.SamePoints t := by
  refine ⟨by rw [h], by rw [h], State.openFrom_congr fun n => ?_, by rw [h], by rw [h]⟩
  unfold State.findCall
  rw [h]

theorem State.SamePoints.of_calls {s t : State} (h : t.book = { s.book with calls := t.book.calls })
    (hn : t.book.calls.map Call.number = s.book.calls.map Call.number)
    (ho : ∀ n st i, t.OpenFrom n st i ↔ s.OpenFrom n st i) : s.SamePoints t := by
  refine ⟨by rw [h], by rw [h], ho, ?_, by rw [h]⟩
  simpa using congrArg List.length hn

theorem changeCall_numbers (s : State) (n : Nat) (f : Call → Call) (_ : ∀ c, (f c).number = c.number) :
    (s.changeCall n f).book.calls.map Call.number = s.book.calls.map Call.number := by
  unfold State.changeCall
  cases hc : s.findCall n with
  | none => rfl
  | some c =>
    rw [State.post_book, State.putCall_book]
    exact replaceCall_numbers _ _

/-- A change of a record that leaves its source, and it open or closed as it was. -/
theorem samePoints_changeCall (s : State) (n : Nat) (f : Call → Call) (hn : ∀ c, (f c).number = c.number)
    (hf : ∀ c, s.findCall n = some c → (f c).source = c.source ∧ ((f c).state = .closed ↔ c.state = .closed)) :
    s.SamePoints (s.changeCall n f) :=
  .of_calls (changeCall_book s n f) (changeCall_numbers s n f hn) (State.openFrom_changeCall hn hf)

theorem EngineStep.openFrom {own : Nat → Prop} {s t : State} (e : EngineStep own s t) (n st i : Nat) :
    t.OpenFrom n st i ↔ s.OpenFrom n st i := by
  cases e with
  | post k => exact State.openFrom_congr (fun n => State.post_findCall s k n) n st i
  | call c c' found step =>
    refine State.openFrom_of_map _ (State.putCall_findCall s c c' n) (fun x hx => ?_) st i
    split
    · next e =>
      have : x = c := Option.some.inj (hx.symm.trans (e ▸ step.same.number ▸ found))
      subst this
      refine ⟨step.same.source, fun hc => ?_, fun hc => by rw [step.shut hc]; exact hc⟩
      by_contra ho
      exact step.opened ho hc
    · exact ⟨rfl, Iff.rfl⟩
  | _ => exact State.openFrom_congr (fun _ => rfl) n st i

/-- Escalation keeps the points and the waiting presses as they are, and which calls are open. -/
theorem Engine.samePoints {own : Nat → Prop} {s t : State} (e : Engine own s t) : s.SamePoints t := by
  refine .of_calls e.frame.book e.frame.numbers fun n st i => ?_
  induction e with
  | refl => rfl
  | tail _ k ih => exact (k.openFrom n st i).trans ih

/-! ### The table of points -/

theorem find?_map_key (ps : List CallPoint) (f : CallPoint → CallPoint)
    (hf : ∀ p, (f p).station = p.station ∧ (f p).input = p.input) (a b : Nat) :
    (ps.map f).find? (fun p => decide (p.station = a ∧ p.input = b)) =
      (ps.find? (fun p => decide (p.station = a ∧ p.input = b))).map f := by
  rw [List.find?_map]
  congr 2
  funext p
  simp only [Function.comp_apply, hf p]

theorem pointKeys_map (ps : List CallPoint) (f : CallPoint → CallPoint)
    (hf : ∀ p, (f p).station = p.station ∧ (f p).input = p.input) : pointKeys (ps.map f) = pointKeys ps := by
  unfold pointKeys
  rw [List.map_map]
  exact List.map_congr_left fun p _ => by simp [hf p]

theorem setPoint_keeps_key (st i : Nat) (x : PointState) (p : CallPoint) :
    (if p.station = st ∧ p.input = i then { p with state := x } else p).station = p.station ∧
      (if p.station = st ∧ p.input = i then { p with state := x } else p).input = p.input := by
  split <;> exact ⟨rfl, rfl⟩

theorem State.setPoint_keys (s : State) (st i : Nat) (x : PointState) :
    pointKeys (s.setPoint st i x).book.points = pointKeys s.book.points :=
  pointKeys_map _ _ (setPoint_keeps_key st i x)

/-- What the entry of each key is after the entry of one took a state. -/
theorem State.setPoint_pointAt (s : State) (st i : Nat) (x : PointState) (a b : Nat) :
    (s.setPoint st i x).pointAt a b =
      if a = st ∧ b = i then (s.pointAt a b).map fun _ => x else s.pointAt a b := by
  have h : (s.setPoint st i x).findPoint a b = (s.findPoint a b).map
      fun p => if p.station = st ∧ p.input = i then { p with state := x } else p :=
    find?_map_key _ _ (setPoint_keeps_key st i x) a b
  unfold State.pointAt
  rw [h]
  cases hf : s.findPoint a b with
  | none => simp
  | some p =>
    obtain ⟨rfl, rfl⟩ := State.findPoint_key hf
    by_cases hk : p.station = st ∧ p.input = i <;> simp [hk]

/-! ### Raising -/

theorem State.openFrom_addCall {s : State} {c : Call} (fresh : ∀ x ∈ s.book.calls, x.number ≠ c.number)
    (ho : c.state ≠ .closed) (n a b : Nat) :
    (s.addCall c).OpenFrom n a b ↔ n = c.number ∧ c.source = .callPoint a b ∨ s.OpenFrom n a b := by
  have hnone : s.findCall c.number = none := by
    by_contra h
    obtain ⟨x, hx, hn⟩ := (State.findCall_ne_none_iff _ _).mp h
    exact fresh x hx hn
  unfold State.OpenFrom
  rw [addCall_findCall fresh]
  by_cases hn : n = c.number
  · subst hn
    simp [hnone, ho]
  · simp [hn]

theorem State.addCall_points (s : State) (c : Call) : (s.addCall c).book.points = s.book.points ∧
    (s.addCall c).book.pendingPresses = s.book.pendingPresses ∧
    (s.addCall c).book.closedOrder = s.book.closedOrder ∧
    (s.addCall c).book.calls.length = s.book.calls.length + 1 := by
  rw [addCall_eq, State.post_book, State.setBook_book]
  exact ⟨rfl, rfl, rfl, (insertCall_perm c s.book.calls).length_eq⟩

/-- What raising the call of an entry makes of points, presses and open calls (R14, R17). -/
structure State.PointRaised (u : State) (p : CallPoint) (t : State) : Prop where
  keys : pointKeys t.book.points = pointKeys u.book.points
  at' : ∀ a b, t.pointAt a b =
    if a = p.station ∧ b = p.input then (u.pointAt a b).map fun _ => .opened u.book.nextNumber else u.pointAt a b
  presses : t.book.pendingPresses = u.book.pendingPresses
  opened : ∀ n a b, t.OpenFrom n a b ↔ n = u.book.nextNumber ∧ (a = p.station ∧ b = p.input) ∨ u.OpenFrom n a b
  count : t.book.calls.length = u.book.calls.length + 1
  order : t.book.closedOrder = u.book.closedOrder

theorem pointRaised {u : State} (h : u.BookSound) (p : CallPoint) : u.PointRaised p (u.raiseFromPoint p) := by
  have e := (engine_raiseFromPoint h.capacity p).samePoints
  obtain ⟨h1, h2, h3, h4⟩ := State.addCall_points u (u.pressCall p)
  refine ⟨?_, fun a b => ?_, e.presses.trans h2, fun n a b => ?_, e.count.trans h4, e.order.trans h3⟩
  · rw [e.points, State.setPoint_keys, h1]
  · rw [State.pointAt_congr e.points, State.setPoint_pointAt, State.pointAt_congr h1]
  · rw [e.opened, State.openFrom_congr (State.setPoint_findCall _ _ _ _),
      State.openFrom_addCall (c := u.pressCall p) (nextNumber_free h.capacity) nofun]
    show n = u.book.nextNumber ∧ CallSource.callPoint p.station p.input = .callPoint a b ∨ _ ↔ _
    rw [CallSource.callPoint.injEq, eq_comm (a := p.station), eq_comm (a := p.input)]

/-- The entry of a press that raised its call goes OPEN with it, whether it was IDLE or waited (R14, R17). -/
theorem State.PointsOk.raised {s u t : State} {p : CallPoint} (h : s.PointsOk)
    (e : u.PointRaised p t) (hp : u.book.points = s.book.points)
    (ho : ∀ n a b, u.OpenFrom n a b ↔ s.OpenFrom n a b)
    (hq : ∀ a b, (a, b) ∈ u.book.pendingPresses ↔ (a, b) ∈ s.book.pendingPresses ∧ ¬ (a = p.station ∧ b = p.input))
    (once : u.book.pendingPresses.Nodup) {x : PointState} (hx : s.pointAt p.station p.input = some x)
    (hn : ∀ n, x ≠ .opened n) : t.PointsOk := by
  have hat := State.pointAt_congr hp
  refine ⟨by rw [e.keys, hp]; exact h.keys, fun n a b => ?_, fun a b => ?_, e.presses ▸ once⟩
  · rw [e.at', e.opened, hat, ho]
    by_cases hk : a = p.station ∧ b = p.input
    · obtain ⟨rfl, rfl⟩ := hk
      have : ¬ s.OpenFrom n p.station p.input := fun hof =>
        hn n (Option.some.inj (hx.symm.trans ((h.opened n _ _).mpr hof)))
      simp [hx, this, eq_comm]
    · rw [if_neg hk, h.opened]
      simp [hk]
  · rw [e.at', e.presses, hq, hat, h.pending]
    by_cases hk : a = p.station ∧ b = p.input
    · obtain ⟨rfl, rfl⟩ := hk
      simp [hx]
    · simp [hk]

/-! ### Closing, and the eviction of CLOSED records -/

theorem State.without_openFrom {s : State} {m : Nat} (h : s.BookSound) (hm : m ∈ s.book.closedOrder) (n a b : Nat) :
    (s.without m).OpenFrom n a b ↔ s.OpenFrom n a b := by
  obtain ⟨x, hx, hst⟩ := (h.closed_iff m).mp hm
  unfold State.OpenFrom
  rw [State.without_findCall]
  split
  · next e => subst e; simp [hx, hst]
  · rfl

/-- No press waits where a slot is to be had (R17). -/
theorem State.WaitsFull.no_press {s u : State} (w : s.WaitsFull) (slot : s.obtainSlot = some u) :
    s.book.pendingPresses = [] := by
  by_contra hne
  obtain ⟨h1, h2⟩ := w hne
  rcases obtainSlot_cases slot with ⟨hl, -⟩ | ⟨n, rest, -, ho, -⟩
  · omega
  · rw [h2] at ho; cases ho

theorem State.WaitsFull.of_no_press {s : State} (h : s.book.pendingPresses = []) : s.WaitsFull :=
  fun hne => absurd h hne

/-- The slot obtained leaves points, presses and open calls as they are (R5). -/
theorem obtainSlot_points {s u : State} (h : s.BookSound) (slot : s.obtainSlot = some u) :
    u.book.points = s.book.points ∧ u.book.pendingPresses = s.book.pendingPresses ∧
      ∀ n a b, u.OpenFrom n a b ↔ s.OpenFrom n a b := by
  rcases obtainSlot_cases slot with ⟨-, rfl⟩ | ⟨n, rest, -, ho, rfl⟩
  · exact ⟨rfl, rfl, fun _ _ _ => Iff.rfl⟩
  · exact ⟨rfl, rfl, State.without_openFrom h (by rw [ho]; exact List.mem_cons_self)⟩

/-- A call closed: every record keeps its source, and only this one is open no longer. -/
theorem openFrom_markClosed (s : State) (r : CloseReason) (n m a b : Nat) :
    (s.markClosed r n).OpenFrom m a b ↔ s.OpenFrom m a b ∧ m ≠ n := by
  unfold State.OpenFrom
  rw [markClosed_findCall]
  by_cases h : m = n
  · subst h
    simp [Call.closedFor]
  · simp [h]

theorem openFrom_closeRecord (s : State) (r : CloseReason) (c : Call) (m a b : Nat) :
    (s.closeRecord r c).OpenFrom m a b ↔ s.OpenFrom m a b ∧ m ≠ c.number := by
  rw [closeRecord_eq, openFrom_markClosed, State.openFrom_congr fun _ => State.leaveCrew?_findCall _ _ _ _,
    (engine_sendCloseNotes s r c).samePoints.opened]

/-- What the close of a record leaves of the book beside the record itself (R20). -/
theorem closeRecord_book (s : State) (r : CloseReason) (c : Call) :
    (s.closeRecord r c).book.points = s.book.points ∧
      (s.closeRecord r c).book.pendingPresses = s.book.pendingPresses ∧
      (s.closeRecord r c).book.closedOrder = s.book.closedOrder ++ [c.number] ∧
      (s.closeRecord r c).book.calls.length = s.book.calls.length := by
  have e := (engine_sendCloseNotes s r c).samePoints
  have hl : ∀ a, ((s.sendCloseNotes r c).leaveCrew? c.number a).book = (s.sendCloseNotes r c).book := fun a => by
    cases a with
    | none => rfl
    | some a => exact (State.post_book _ _).trans rfl
  have hm : ∀ u : State, (u.markClosed r c.number).book.points = u.book.points ∧
      (u.markClosed r c.number).book.pendingPresses = u.book.pendingPresses ∧
      (u.markClosed r c.number).book.calls.length = u.book.calls.length := fun u => by
    have hn := congrArg List.length (changeCall_numbers u c.number (fun c => c.closedFor r u.clock) fun _ => rfl)
    unfold State.markClosed
    rw [State.setBook_book, changeCall_book]
    exact ⟨rfl, rfl, by simpa using hn⟩
  rw [closeRecord_eq]
  obtain ⟨h1, h2, h3⟩ := hm ((s.sendCloseNotes r c).leaveCrew? c.number c.accepting)
  refine ⟨?_, ?_, ?_, ?_⟩
  · rw [h1, hl, e.points]
  · rw [h2, hl, e.presses]
  · rw [markClosed_closedOrder, hl, e.order]
  · rw [h3, hl, e.count]

theorem settlePoint_keys (s : State) (c : Call) :
    pointKeys (s.settlePoint c).book.points = pointKeys s.book.points := by
  unfold State.settlePoint
  split
  · rfl
  · split
    · rfl
    · split
      · exact State.setPoint_keys _ _ _ _
      · rfl

/-- The entry that is OPEN with the closed call goes back to IDLE, and no other entry changes (R21). -/
theorem settlePoint_pointAt (s : State) (c : Call)
    (only : ∀ a b, s.pointAt a b = some (.opened c.number) → c.source = .callPoint a b) (a b : Nat) :
    (s.settlePoint c).pointAt a b =
      if s.pointAt a b = some (.opened c.number) then some .idle else s.pointAt a b := by
  unfold State.settlePoint
  cases hs : c.source with
  | plantComputer => rw [if_neg fun h => nomatch hs.symm.trans (only a b h)]
  | callPoint st i =>
    have other : ¬ (a = st ∧ b = i) → ¬ s.pointAt a b = some (.opened c.number) := fun hk h => by
      obtain ⟨rfl, rfl⟩ := CallSource.callPoint.inj (hs.symm.trans (only a b h))
      exact hk ⟨rfl, rfl⟩
    dsimp only
    cases hf : s.findPoint st i with
    | none =>
      by_cases hk : a = st ∧ b = i
      · obtain ⟨rfl, rfl⟩ := hk
        simp [State.pointAt, hf]
      · rw [if_neg (other hk)]
    | some p =>
      have hat : s.pointAt st i = some p.state := by simp [State.pointAt, hf]
      by_cases hp : p.state = .opened c.number
      · rw [hp] at hat
        simp only [hp, if_true, State.setPoint_pointAt]
        by_cases hk : a = st ∧ b = i
        · obtain ⟨rfl, rfl⟩ := hk
          simp [hat]
        · rw [if_neg hk, if_neg (other hk)]
      · dsimp only
        rw [if_neg hp]
        by_cases hk : a = st ∧ b = i
        · obtain ⟨rfl, rfl⟩ := hk
          simp [hat, hp]
        · rw [if_neg (other hk)]

/-- The close of a call with the settling of its entry keeps points and presses sound (R20, R21). -/
theorem State.PointsOk.closeRecord {s : State} (h : s.PointsOk) (r : CloseReason) {c : Call}
    (hc : s.findCall c.number = some c) : ((s.closeRecord r c).settlePoint c).PointsOk := by
  obtain ⟨hp, hq, -, -⟩ := closeRecord_book s r c
  have hat := State.pointAt_congr hp
  have at' : ∀ a b, ((s.closeRecord r c).settlePoint c).pointAt a b =
      if s.pointAt a b = some (.opened c.number) then some .idle else s.pointAt a b := fun a b => by
    rw [settlePoint_pointAt, hat]
    intro a b hab
    obtain ⟨x, hx, -, hsrc⟩ := (h.opened _ a b).mp (hat a b ▸ hab)
    exact Option.some.inj (hc.symm.trans hx) ▸ hsrc
  refine ⟨by rw [settlePoint_keys, hp]; exact h.keys, fun n a b => ?_, fun a b => ?_, ?_⟩
  · rw [at', State.openFrom_congr (s := s.closeRecord r c) fun m => ?_, openFrom_closeRecord, ← h.opened]
    · split
      · next e =>
        rw [e]
        simp only [Option.some.injEq, PointState.opened.injEq, reduceCtorEq, false_iff, not_and, not_not]
        exact Eq.symm
      · next e =>
        exact ⟨fun hn => ⟨hn, fun en => e (en ▸ hn)⟩, And.left⟩
    · unfold State.findCall
      rw [(settlePoint_calls _ c).1]
  · rw [(settlePoint_calls _ c).2.2, hq, h.pending, at']
    split
    · next e => simp [e]
    · rfl
  · rw [(settlePoint_calls _ c).2.2, hq]
    exact h.once

/-- Taking out a record frees one slot. -/
theorem without_length {s : State} (h : s.BookSound) {c : Call} (hc : c ∈ s.book.calls) :
    (s.without c.number).book.calls.length + 1 = s.book.calls.length := by
  have hm := List.mem_map_of_mem (f := Call.number) hc
  have hnd : (s.book.calls.map Call.number).Nodup := h.ascending.imp fun h => Nat.ne_of_lt h
  have he : ((s.without c.number).book.calls.map Call.number) = (s.book.calls.map Call.number).erase c.number := by
    rw [hnd.erase_eq_filter, List.filter_map]
    exact congrArg _ (List.filter_congr fun x _ => by by_cases e : x.number = c.number <;> simp [e])
  have hl := congrArg List.length he
  rw [List.length_map, List.length_erase_of_mem hm, List.length_map] at hl
  have := List.length_pos_of_mem hc
  omega

/-- The oldest waiting press is served in the slot of the only CLOSED record (R17). -/
theorem servePending_points {s : State} (hb : s.BookSound) (h : s.PointsOk) {n : Nat}
    (full : s.book.pendingPresses ≠ [] → s.book.calls.length = Config.maxCalls ∧ s.book.closedOrder = [n]) :
    s.servePending.PointsOk ∧ s.servePending.WaitsFull := by
  cases hp : s.book.pendingPresses with
  | nil =>
    rw [servePending_nil s hp]
    exact ⟨h, .of_no_press hp⟩
  | cons key rest =>
    obtain ⟨hl, ho⟩ := full (by rw [hp]; exact List.cons_ne_nil _ _)
    obtain ⟨st, i⟩ := key
    have once := h.once
    rw [hp, List.nodup_cons] at once
    have hat : s.pointAt st i = some .pending := (h.pending st i).mp (hp ▸ List.mem_cons_self)
    have hmem : n ∈ s.book.closedOrder := by rw [ho]; exact List.mem_cons_self
    have evict : s.evictOldest = s.without n := by unfold State.evictOldest; rw [ho]
    have ht : (s.takePress rest).BookSound := hb.takePress (by rw [ho]; exact List.cons_ne_nil _ _) rest
    have hpts : (s.takePress rest).book.points = s.book.points := by unfold State.takePress; rw [evict]; rfl
    have hopen : ∀ m a b, (s.takePress rest).OpenFrom m a b ↔ s.OpenFrom m a b := fun m a b =>
      (State.openFrom_congr (s := s.without n) (fun k => by unfold State.takePress; rw [evict]; rfl) m a b).trans
        (State.without_openFrom hb hmem m a b)
    have hpress : ∀ a b, (a, b) ∈ rest ↔ (a, b) ∈ s.book.pendingPresses ∧ ¬ (a = st ∧ b = i) := fun a b => by
      rw [hp, List.mem_cons, Prod.mk.injEq]
      refine ⟨fun hr => ⟨.inr hr, ?_⟩, fun ⟨h1, h2⟩ => h1.resolve_left h2⟩
      rintro ⟨rfl, rfl⟩
      exact once.1 hr
    have hcount : (s.takePress rest).book.calls.length + 1 = Config.maxCalls := by
      obtain ⟨x, hx, rfl, -⟩ := (hb.closed n).mp hmem
      unfold State.takePress
      rw [evict, ← hl]
      exact without_length hb hx
    have horder : (s.takePress rest).book.closedOrder = [] := by
      unfold State.takePress
      rw [evict]
      show s.book.closedOrder.filter _ = []
      rw [ho]
      simp
    rw [servePending_cons s _ rest hp]
    cases hf : (s.takePress rest).findPoint st i with
    | none => rw [← State.pointAt_congr hpts, State.pointAt, hf] at hat; cases hat
    | some p =>
      obtain ⟨rfl, rfl⟩ := State.findPoint_key hf
      have e := pointRaised ht p
      refine ⟨h.raised e hpts hopen hpress once.2 hat nofun, fun _ => ⟨?_, ?_⟩⟩
      · rw [e.count, hcount]
      · rw [e.order, horder]

/-- Closing a call keeps points and presses sound: the presses that wait are served at once (R17, R20, R21). -/
theorem closeCall_points {s : State} (hb : s.BookSound) (h : s.PointsOk) (w : s.WaitsFull) (r : CloseReason) {c : Call}
    (hc : s.findCall c.number = some c) (ho : c.state ≠ .closed) :
    (s.closeCall r c.number).PointsOk ∧ (s.closeCall r c.number).WaitsFull := by
  rw [closeCall_eq s r _ c hc]
  refine servePending_points ((hb.closeRecord r hc ho).settlePoint c) (h.closeRecord r hc) (n := c.number) fun hne => ?_
  obtain ⟨-, hq, hord, hlen⟩ := closeRecord_book s r c
  rw [(settlePoint_calls _ c).2.2, hq] at hne
  obtain ⟨h1, h2⟩ := w hne
  rw [(settlePoint_calls _ c).1, (settlePoint_calls _ c).2.1, hlen, hord, h1, h2]
  exact ⟨rfl, rfl⟩

/-- After the record of the acceptance only pages are withdrawn and sent (R81). -/
theorem engine_acceptCall (s : State) (c : Call) (crew : Nat) (heard : Tick) :
    Engine noCall (s.acceptRecord c crew heard) (s.acceptCall c crew heard) := by
  rw [acceptCall_eq]
  exact (EngineStep.withdraw _ c.number).one.trans (engine_sendToCrews _ _ _)

/-! ### The table of points written by requests and by the load -/

theorem definePoint_points {s : State} (h : s.PointsOk) (st i l : Nat) (cls : Cls) (text : Text) :
    (s.definePoint st i l cls text).PointsOk := by
  cases hf : s.findPoint st i with
  | none =>
    rw [definePoint_new s st i l cls text hf]
    have at' : ∀ a b x, x ≠ .idle → ((s.setBook { s.book with
        points := s.book.points ++ [⟨st, i, l, cls, text, .idle⟩] }).pointAt a b = some x ↔ s.pointAt a b = some x) :=
      fun a b x hx => by
        unfold State.pointAt State.findPoint
        rw [State.setBook_book]
        dsimp only
        rw [List.find?_append, List.find?_singleton]
        cases s.book.points.find? _ with
        | some p => rfl
        | none => split <;> simp [Ne.symm hx]
    refine ⟨?_, fun n a b => ?_, fun a b => ?_, h.once⟩
    · show (pointKeys (s.book.points ++ _)).Nodup
      unfold pointKeys
      rw [List.map_append]
      refine List.nodup_append.mpr ⟨h.keys, List.nodup_singleton _, ?_⟩
      rintro _ hm _ hk rfl
      obtain ⟨p, hp, hpk⟩ := List.mem_map.mp hm
      rw [List.map_singleton, List.mem_singleton] at hk
      exact State.findPoint_eq_none hf p hp (Prod.mk.inj (hpk.trans hk))
    · exact (at' a b (.opened n) nofun).trans (h.opened n a b)
    · exact (h.pending a b).trans (at' a b .pending nofun).symm
  | some p =>
    rw [definePoint_known s st i l cls text p hf]
    have hkey : ∀ p, (CallPoint.revalued st i l cls text p).station = p.station ∧
        (CallPoint.revalued st i l cls text p).input = p.input := fun p => by
      unfold CallPoint.revalued
      split <;> exact ⟨rfl, rfl⟩
    have at' : ∀ a b, (s.setBook { s.book with
        points := s.book.points.map (CallPoint.revalued st i l cls text) }).pointAt a b = s.pointAt a b := fun a b => by
      unfold State.pointAt State.findPoint
      rw [State.setBook_book]
      dsimp only
      rw [find?_map_key _ _ hkey, Option.map_map]
      congr 1
      funext p
      unfold CallPoint.revalued
      dsimp only [Function.comp_apply]
      split <;> rfl
    refine ⟨?_, fun n a b => by rw [at', h.opened]; rfl, fun a b => by rw [at']; exact h.pending a b, h.once⟩
    show (pointKeys (s.book.points.map _)).Nodup
    rw [pointKeys_map _ _ hkey]
    exact h.keys

/-- The entry removed is open with no call, and its press leaves the list with it (R12). -/
theorem removePoint_points {s : State} (h : s.PointsOk) (st i : Nat)
    (closed : ∀ n, s.pointAt st i ≠ some (.opened n)) : (s.removePoint st i).PointsOk := by
  have at' : ∀ a b x, (s.removePoint st i).pointAt a b = some x ↔ ¬ (a = st ∧ b = i) ∧ s.pointAt a b = some x := by
    intro a b x
    have keys : (pointKeys (s.removePoint st i).book.points).Nodup := h.keys.sublist (List.filter_sublist.map _)
    rw [State.pointAt_eq_some_iff keys, State.pointAt_eq_some_iff h.keys]
    show (∃ p ∈ s.book.points.filter _, _) ↔ _
    constructor
    · rintro ⟨p, hp, rfl, rfl, rfl⟩
      obtain ⟨hp, hk⟩ := List.mem_filter.mp hp
      exact ⟨by simpa only [Bool.not_eq_true', decide_eq_false_iff_not] using hk, p, hp, rfl, rfl, rfl⟩
    · rintro ⟨hk, p, hp, rfl, rfl, rfl⟩
      exact ⟨p, List.mem_filter.mpr ⟨hp, by simpa only [Bool.not_eq_true', decide_eq_false_iff_not] using hk⟩, rfl, rfl, rfl⟩
  refine ⟨h.keys.sublist (List.filter_sublist.map _), fun n a b => ?_, fun a b => ?_, h.once.sublist List.filter_sublist⟩
  · rw [at', State.openFrom_congr (s := s) (t := s.removePoint st i) fun _ => rfl, ← h.opened]
    refine ⟨And.right, fun ho => ⟨?_, ho⟩⟩
    rintro ⟨rfl, rfl⟩
    exact closed n ho
  · rw [at', ← h.pending]
    show (a, b) ∈ s.book.pendingPresses.filter _ ↔ _
    rw [List.mem_filter, and_comm, decide_eq_true_eq, ne_eq, Prod.mk.injEq]

/-- The load puts an IDLE entry at every stored key, in an empty book (R180). -/
theorem load_points {s : State} (hb : s.BookSound) (h : s.PointsOk) (hs : s.link.state = .starting) {img : Image}
    (hc : img.consistent = true) (r : LoadResult) :
    ((s.install img).setStore { (s.install img).store with loadResult := some r }).enterOnline.PointsOk ∧
      ((s.install img).setStore { (s.install img).store with loadResult := some r }).enterOnline.WaitsFull := by
  obtain ⟨hcalls, hpts⟩ := hb.starting hs
  have nopress : s.book.pendingPresses = [] := by
    refine List.eq_nil_iff_forall_not_mem.mpr fun k hk => ?_
    have := (h.pending k.1 k.2).mp hk
    simp [State.pointAt, State.findPoint, hpts] at this
  generalize ht : ((s.install img).setStore { (s.install img).store with loadResult := some r }).enterOnline = t
  have hbook : t.book = { s.book with points := img.points.map StoredPoint.loaded } := by
    subst ht
    simp [State.enterOnline, State.armSilence, State.install]
  have hfind : ∀ n, t.findCall n = none := fun n => by
    unfold State.findCall
    rw [hbook]
    show s.book.calls.find? _ = none
    rw [hcalls]; rfl
  have keys : (pointKeys t.book.points).Nodup := by
    rw [hbook]
    show (pointKeys (img.points.map StoredPoint.loaded)).Nodup
    unfold pointKeys
    rw [List.map_map]
    exact ((consistent_iff img).mp hc).keys
  have idle : ∀ a b x, t.pointAt a b = some x → x = .idle := fun a b x hx => by
    obtain ⟨p, hp, -, -, rfl⟩ := (State.pointAt_eq_some_iff keys a b x).mp hx
    rw [hbook] at hp
    obtain ⟨q, -, rfl⟩ := List.mem_map.mp hp
    rfl
  have hq : t.book.pendingPresses = [] := by rw [hbook]; exact nopress
  refine ⟨⟨keys, fun n a b => ⟨fun hx => (nomatch idle a b _ hx), ?_⟩, fun a b => ?_, hq ▸ List.nodup_nil⟩,
    .of_no_press hq⟩
  · rintro ⟨c, hx, -⟩
    rw [hfind] at hx
    cases hx
  · rw [hq]
    exact ⟨fun hm => absurd hm List.not_mem_nil, fun hx => nomatch idle a b _ hx⟩

/-! ### Every move -/

/-- Every operation taken whole keeps the call points and the waiting presses sound. -/
theorem Move.pointsOk {s t : State} (m : Move s t) (hb : s.BookSound) (h : s.PointsOk) (w : s.WaitsFull) :
    t.PointsOk ∧ t.WaitsFull := by
  have same : ∀ {u : State}, s.SamePoints u → u.PointsOk ∧ u.WaitsFull := fun e => ⟨e.ok h, e.full w⟩
  cases m with
  | other _ q => exact same (.of_book q.book)
  | escalate _ e => exact same e.samePoints
  | pool p l _ => exact same (.of_book rfl)
  | raise u c pref slot running origin cls lad text new =>
    subst new
    obtain ⟨hu, -, -, -⟩ := obtainSlot_sound hb slot
    obtain ⟨hp, hq, ho⟩ := obtainSlot_points hb slot
    have e := (engine_raise hu.capacity rfl rfl pref
      (c := newCall u.book.nextNumber .plantComputer origin cls lad text pref u.clock)).samePoints
    obtain ⟨h1, h2, -, -⟩ := State.addCall_points u
      (newCall u.book.nextNumber .plantComputer origin cls lad text pref u.clock)
    refine ⟨h.congr (e.points.trans (h1.trans hp)) (e.presses.trans (h2.trans hq)) fun n a b => ?_,
      .of_no_press (e.presses.trans (h2.trans (hq.trans (w.no_press slot))))⟩
    rw [e.opened, State.openFrom_addCall (nextNumber_free hu.capacity) (by exact nofun), ho]
    exact or_iff_right fun h => CallSource.noConfusion (h.2 : CallSource.plantComputer = _)
  | press u p slot found idle =>
    obtain ⟨hu, -, -, -⟩ := obtainSlot_sound hb slot
    obtain ⟨hp, hq, ho⟩ := obtainSlot_points hb slot
    have e := pointRaised hu p
    have nopress := w.no_press slot
    refine ⟨h.raised e hp ho (fun a b => ?_) (hq ▸ h.once) (x := .idle) ?_ nofun,
      .of_no_press (e.presses.trans (hq.trans nopress))⟩
    · rw [hq, nopress]; simp
    · simp [State.pointAt, found, idle]
  | pressWaits p slot found idle =>
    obtain ⟨full, order⟩ := obtainSlot_eq_none slot
    have hat : s.pointAt p.station p.input = some .idle := by simp [State.pointAt, found, idle]
    have at' : ∀ a b, (s.pressWaits p.station p.input).pointAt a b =
        if a = p.station ∧ b = p.input then (s.pointAt a b).map fun _ => .pending else s.pointAt a b :=
      State.setPoint_pointAt s _ _ _
    have fresh : (p.station, p.input) ∉ s.book.pendingPresses := fun hm => by
      have := (h.pending _ _).mp hm
      rw [hat] at this
      cases this
    refine ⟨⟨(State.setPoint_keys s _ _ _).symm ▸ h.keys, fun n a b => ?_, fun a b => ?_, ?_⟩, fun _ => ⟨?_, order⟩⟩
    · rw [at', State.openFrom_congr (s := s) (t := s.pressWaits p.station p.input) fun _ => rfl, ← h.opened]
      by_cases hk : a = p.station ∧ b = p.input
      · obtain ⟨rfl, rfl⟩ := hk
        simp [hat]
      · rw [if_neg hk]
    · rw [at']
      show (a, b) ∈ s.book.pendingPresses ++ [_] ↔ _
      rw [List.mem_append, List.mem_singleton, h.pending, Prod.mk.injEq]
      by_cases hk : a = p.station ∧ b = p.input
      · obtain ⟨rfl, rfl⟩ := hk
        simp [hat]
      · rw [if_neg hk, or_iff_left hk]
    · exact List.nodup_append.mpr ⟨h.once, List.nodup_singleton _, by
        rintro a ha b hbm rfl
        exact fresh (List.mem_singleton.mp hbm ▸ ha)⟩
    · exact Nat.le_antisymm hb.capacity (Nat.le_of_not_lt full)
  | pressed n p _ _ => exact same (samePoints_changeCall s n _ (fun _ => rfl) fun _ _ => ⟨rfl, Iff.rfl⟩)
  | close r c found opened => exact closeCall_points hb h w r found opened
  | accept c crew heard found waits _ _ =>
    have e := (engine_acceptCall s c crew heard).samePoints
    have hcl : c.state ≠ .closed := by rcases waits with e | e <;> simp [e]
    have hr : (s.acceptRecord c crew heard).book =
        (s.changeCall c.number (Call.acceptedBy crew heard s.clock s.arrivalWindow)).book := State.post_book _ _
    refine same (.trans (.trans (samePoints_changeCall s c.number
      (Call.acceptedBy crew heard s.clock s.arrivalWindow) (fun _ => rfl) fun x hx => ?_) (.of_book hr)) e)
    obtain rfl := Option.some.inj (found.symm.trans hx)
    exact ⟨rfl, ⟨nofun, fun e => absurd e hcl⟩⟩
  | release c found hs =>
    rw [releaseCrew_eq]
    refine same (.trans (samePoints_changeCall s c.number Call.released (fun _ => rfl) fun x hx => ?_) ?_)
    · obtain rfl := Option.some.inj (found.symm.trans hx)
      exact ⟨rfl, ⟨fun e => CallState.noConfusion e, fun e => CallState.noConfusion (hs.symm.trans e)⟩⟩
    · cases c.accepting with
      | none => exact .of_book rfl
      | some a => exact .of_book (State.post_book _ _)
  | define st i l cls text _ _ _ =>
    refine ⟨definePoint_points h st i l cls text, ?_⟩
    unfold State.definePoint
    split <;> exact w
  | undefine p found closed =>
    refine ⟨removePoint_points h _ _ fun n hn => closed n (by simpa [State.pointAt, found] using hn), fun hne => ?_⟩
    refine w fun hnil => hne ?_
    show s.book.pendingPresses.filter _ = []
    rw [hnil]; rfl
  | load img r hs hc => exact load_points hb h hs hc r
  | sent f hcts found =>
    have e : s.SamePoints (s.setLink { s.link with sending := none, hcts := hcts }) := .of_book rfl
    rcases freeSent_eq (s.setLink { s.link with sending := none, hcts := hcts }) f with ⟨-, e0⟩ | ⟨n, hn, e0⟩
    · rw [e0]; exact same e
    · have hm := hb.frees f n found hn
      have nopress : s.book.pendingPresses = [] := by
        by_contra hne
        rw [(w hne).2] at hm
        exact List.not_mem_nil hm
      rw [e0]
      refine ⟨h.congr rfl rfl fun m a b => ?_, .of_no_press nopress⟩
      exact (State.openFrom_congr (s := s.without n) (fun _ => rfl) m a b).trans (State.without_openFrom hb hm m a b)

/-! ### Runs and steps -/

theorem Moves.pointsOk {s t : State} (m : Moves s t) (hb : s.BookSound) (h : s.PointsOk ∧ s.WaitsFull) :
    t.PointsOk ∧ t.WaitsFull := by
  induction m with
  | refl => exact h
  | tail ms k ih => exact k.pointsOk (Moves.bookSound ms hb) ih.1 ih.2

theorem Run.pointsSound {s t : State} (r : Run s t) (hb : s.BookSound) (h : s.PointsSound) : t.PointsSound := by
  rw [pointsSound_iff] at h ⊢
  have ready : ∀ u : State, u.PointsOk ∧ u.WaitsFull → u.sendReady.PointsOk ∧ u.sendReady.WaitsFull := fun u hu =>
    have e : u.SamePoints u.sendReady := .of_book (State.sendReady_book u)
    ⟨e.ok hu.1, e.full hu.2⟩
  induction r with
  | refl => exact h
  | still r m _ ih => exact m.pointsOk (r.bookSound hb) ih
  | event r m ih => exact ready _ (m.pointsOk (r.bookSound hb) ih)
  | reply r m _ x ih =>
    obtain ⟨h1, h2⟩ := m.pointsOk (r.bookSound hb) ih
    have e : ∀ u : State, ∀ l, u.SamePoints (u.setLink l) := fun _ _ => .of_book rfl
    exact ready _ ⟨(e _ _).ok h1, (e _ _).full h2⟩

/-- Settles O54: a step is a run of moves, each of which keeps the book and then the points, or a reset. -/
theorem stepsKeepTheBookSound : Obligations.StepsKeepTheBookSound := by
  refine ⟨fun s t hb h => ?_, fun s t hb hp h => ?_⟩
  · rcases step_does h with r | ⟨cause, e, low, rfl⟩
    · exact r.bookSound hb
    · exact afterReset_book _ _ _ _
  · rcases step_does h with r | ⟨cause, e, low, rfl⟩
    · exact r.pointsSound hb hp
    · exact afterReset_points _ _ _ _

end Sys2Proof.Machine
end

section
/-!
SUPPORT. Every run keeps the accepted lists true to the calls' accepting crews (R2, R30, R31), and with it O58.
-/

namespace Sys2Proof.Machine

/-- The crew that has taken call `n`, if one has. -/
def State.takenBy (s : State) (n : Nat) : Option Nat := (s.findCall n).bind Call.accepting

theorem acceptedSound_held_iff (s : State) (n c : Nat) :
    (∃ x, s.findCall n = some x ∧ x.accepting = some c) ↔ s.takenBy n = some c := by
  simp [State.takenBy, Option.bind_eq_some_iff]

theorem State.AcceptedSound.mem_iff {s : State} (h : s.AcceptedSound) {c : Nat} (hc : 1 ≤ c ∧ c ≤ 48) (n : Nat) :
    n ∈ (s.crew c).accepted ↔ s.takenBy n = some c :=
  (h.held c hc.1 hc.2 n).trans (acceptedSound_held_iff s n c)

theorem acceptedSound_of {s : State} (once : ∀ c, (s.crew c).accepted.Nodup)
    (held : ∀ c, 1 ≤ c ∧ c ≤ 48 → ∀ n, n ∈ (s.crew c).accepted ↔ s.takenBy n = some c) : s.AcceptedSound :=
  ⟨once, fun c h1 h2 n => (held c ⟨h1, h2⟩ n).trans (acceptedSound_held_iff s n c).symm⟩

/-! ### What changes neither the lists nor who has taken a call -/

/-- The accepted lists and the takers of the calls stand as they were. -/
structure State.SameTaken (s t : State) : Prop where
  accepted : ∀ c, (t.crew c).accepted = (s.crew c).accepted
  taken : ∀ n, t.takenBy n = s.takenBy n

theorem State.SameTaken.trans {s t u : State} (a : s.SameTaken t) (b : t.SameTaken u) : s.SameTaken u :=
  ⟨fun c => (b.accepted c).trans (a.accepted c), fun n => (b.taken n).trans (a.taken n)⟩

theorem State.SameTaken.sound {s t : State} (e : s.SameTaken t) (h : s.AcceptedSound) : t.AcceptedSound :=
  acceptedSound_of (fun c => by rw [e.accepted]; exact h.once c)
    fun c hc n => by rw [e.accepted, e.taken]; exact h.mem_iff hc n

theorem State.SameTaken.of_book {s t : State} (hb : t.book = s.book)
    (hc : ∀ c, (t.crew c).accepted = (s.crew c).accepted) : s.SameTaken t :=
  ⟨hc, fun n => by unfold State.takenBy State.findCall; rw [hb]⟩

/-- Who has taken each call after one was changed. -/
theorem takenBy_changeCall (s : State) (n : Nat) (f : Call → Call) (hf : ∀ c, (f c).number = c.number) (m : Nat) :
    (s.changeCall n f).takenBy m = if m = n then (s.findCall n).bind fun c => (f c).accepting else s.takenBy m := by
  unfold State.takenBy
  rw [State.changeCall_findCall s n m f hf]
  split
  · next e => rw [e, Option.bind_map]; rfl
  · rw [Option.map_id']

theorem sameTaken_changeCall (s : State) (n : Nat) (f : Call → Call) (hf : ∀ c, (f c).Keeps c) :
    s.SameTaken (s.changeCall n f) := by
  refine ⟨fun c => by rw [State.changeCall_crew], fun m => ?_⟩
  rw [takenBy_changeCall s n f (fun c => (hf c).same.number)]
  split
  · next e => subst e; exact congrArg _ (funext fun c => (hf c).accepting)
  · rfl

theorem Act.sameTaken {s t : State} (a : Act s t) : s.SameTaken t := by
  cases a with
  | change n f hf => exact sameTaken_changeCall s n f hf
  | _ => exact .of_book rfl fun _ => rfl

theorem Acts.sameTaken {s t : State} (a : Acts s t) : s.SameTaken t := by
  induction a with
  | refl => exact .of_book rfl fun _ => rfl
  | tail _ k ih => exact ih.trans k.sameTaken

/-- No crew has taken a call that is CLOSED (R2, R20). -/
theorem State.BookSound.closed_takenBy {s : State} (h : s.BookSound) {n : Nat} (hn : n ∈ s.book.closedOrder) :
    s.takenBy n = none := by
  obtain ⟨c, hc, hs⟩ := (h.closed_iff n).mp hn
  have := (h.calls c (State.findCall_mem hc)).accepting
  simp only [hs, reduceCtorEq, or_self, iff_false, Bool.not_eq_true, Option.isSome_eq_false_iff,
    Option.isNone_iff_eq_none] at this
  simp [State.takenBy, hc, this]

theorem sameTaken_without {s : State} (h : s.BookSound) {n : Nat} (hn : n ∈ s.book.closedOrder) :
    s.SameTaken (s.without n) := by
  refine ⟨fun _ => rfl, fun m => ?_⟩
  show ((s.without n).findCall m).bind _ = _
  rw [State.without_findCall]
  split
  · next e => rw [e, h.closed_takenBy hn]; rfl
  · rfl

theorem sameTaken_obtainSlot {s u : State} (h : s.BookSound) (slot : s.obtainSlot = some u) : s.SameTaken u := by
  rcases obtainSlot_cases slot with ⟨-, rfl⟩ | ⟨n, rest, -, ho, rfl⟩
  · exact .of_book rfl fun _ => rfl
  · exact sameTaken_without h (by rw [ho]; exact List.mem_cons_self)

theorem sameTaken_addCall {s : State} {c : Call} (fresh : ∀ x ∈ s.book.calls, x.number ≠ c.number)
    (hc : c.accepting = none) : s.SameTaken (s.addCall c) := by
  refine ⟨fun k => by rw [addCall_eq, State.post_crew]; rfl, fun m => ?_⟩
  unfold State.takenBy
  rw [addCall_findCall fresh]
  split
  · next e =>
    have : s.findCall m = none := by
      by_contra h
      obtain ⟨x, hx, hn⟩ := (State.findCall_ne_none_iff _ _).mp h
      exact fresh x hx (hn.trans e)
    rw [this]
    exact hc
  · rfl

theorem sameTaken_setPoint (s : State) (st i : Nat) (x : PointState) : s.SameTaken (s.setPoint st i x) :=
  ⟨fun _ => rfl, fun _ => rfl⟩

theorem sameTaken_raiseFromPoint {u : State} (h : u.BookSound) (p : CallPoint) : u.SameTaken (u.raiseFromPoint p) := by
  rw [raiseFromPoint_eq]
  exact ((sameTaken_addCall (c := u.pressCall p) (nextNumber_free h.capacity) rfl).trans
    (sameTaken_setPoint _ _ _ _)).trans (Acts.sameTaken (acts_startCall _ _ _))

theorem sameTaken_settlePoint (s : State) (c : Call) : s.SameTaken (s.settlePoint c) := by
  unfold State.settlePoint
  split
  · exact .of_book rfl fun _ => rfl
  · split
    · exact .of_book rfl fun _ => rfl
    · split
      · exact sameTaken_setPoint _ _ _ _
      · exact .of_book rfl fun _ => rfl

theorem sameTaken_servePending {s : State} (h : s.BookSound) (ho : s.book.closedOrder ≠ []) :
    s.SameTaken s.servePending := by
  cases hp : s.book.pendingPresses with
  | nil => rw [servePending_nil s hp]; exact .of_book rfl fun _ => rfl
  | cons key rest =>
    have evict : s.SameTaken s.evictOldest := by
      unfold State.evictOldest
      cases hc : s.book.closedOrder with
      | nil => exact .of_book rfl fun _ => rfl
      | cons n ns => exact sameTaken_without h (by rw [hc]; exact List.mem_cons_self)
    have take : s.SameTaken (s.takePress rest) := evict.trans ⟨fun _ => rfl, fun _ => rfl⟩
    rw [servePending_cons s key rest hp]
    split
    · exact take
    · exact take.trans (sameTaken_raiseFromPoint (h.takePress ho rest) _)

/-! ### Losing and taking a call -/

/-- What a crew's list is after call `n` left it (R31). -/
theorem leaveCrew?_accepted (s : State) (n : Nat) (a : Option Nat) (k : Nat) :
    ((s.leaveCrew? n a).crew k).accepted =
      if a = some k ∧ 1 ≤ k ∧ k ≤ 48 then (s.crew k).accepted.filter (fun m => decide (m ≠ n))
      else (s.crew k).accepted := by
  cases a with
  | none => simp [State.leaveCrew?]
  | some a =>
    have : (s.leaveCrew? n (some a)).crew k = (s.putCrew a { s.crew a with
        accepted := (s.crew a).accepted.filter (fun m => decide (m ≠ n)) }).crew k := State.post_crew _ _ _
    rw [this, State.putCrew_crew_eq]
    by_cases hk : k = a
    · subst hk
      by_cases hr : 1 ≤ k ∧ k ≤ 48 <;> simp [hr]
    · have : a ≠ k := fun e => hk e.symm
      simp [hk, this]

/-- A call leaves the list of the crew that had taken it, and is taken no more (R20, R31, R71). -/
theorem State.AcceptedSound.lose {s t : State} (h : s.AcceptedSound) (n : Nat)
    (ht : ∀ m, t.takenBy m = if m = n then none else s.takenBy m)
    (hl : ∀ k, (t.crew k).accepted = if s.takenBy n = some k ∧ 1 ≤ k ∧ k ≤ 48 then
      (s.crew k).accepted.filter (fun m => decide (m ≠ n)) else (s.crew k).accepted) : t.AcceptedSound := by
  refine acceptedSound_of (fun k => ?_) fun k hk m => ?_
  · rw [hl]
    split
    · exact (h.once k).sublist List.filter_sublist
    · exact h.once k
  · rw [hl, ht]
    by_cases hn : s.takenBy n = some k
    · rw [if_pos ⟨hn, hk⟩, List.mem_filter, h.mem_iff hk, decide_eq_true_eq]
      by_cases hm : m = n <;> simp [hm]
    · rw [if_neg fun e => hn e.1, h.mem_iff hk]
      split
      · next e => rw [e]; simp [hn]
      · rfl

theorem leaveCrew?_takenBy (s : State) (n : Nat) (a : Option Nat) (m : Nat) :
    (s.leaveCrew? n a).takenBy m = s.takenBy m := by
  unfold State.takenBy
  rw [State.leaveCrew?_findCall]

theorem State.AcceptedSound.closeRecord {s : State} (h : s.AcceptedSound) (r : CloseReason) {c : Call}
    (hc : s.findCall c.number = some c) : (s.closeRecord r c).AcceptedSound := by
  have e : s.SameTaken (s.sendCloseNotes r c) :=
    Acts.sameTaken ((Act.withdraw s c.number).one.trans (acts_sendToCrews _ _ _))
  have taken : s.takenBy c.number = c.accepting := by simp [State.takenBy, hc]
  rw [closeRecord_eq]
  refine (e.sound h).lose c.number (fun m => ?_) fun k => ?_
  · unfold State.takenBy
    rw [markClosed_findCall, State.leaveCrew?_findCall]
    by_cases hm : m = c.number
    · simp only [hm, if_true]
      cases State.findCall _ _ <;> rfl
    · simp [hm]
  · show ((State.changeCall _ _ _).crew k).accepted = _
    rw [State.changeCall_crew, leaveCrew?_accepted, e.taken, taken]

theorem State.AcceptedSound.closeCall {s : State} (h : s.AcceptedSound) (hb : s.BookSound) (r : CloseReason) {c : Call}
    (hc : s.findCall c.number = some c) (ho : c.state ≠ .closed) : (s.closeCall r c.number).AcceptedSound := by
  rw [closeCall_eq s r _ c hc]
  have e := sameTaken_settlePoint (s.closeRecord r c) c
  refine (e.trans (sameTaken_servePending ((hb.closeRecord r hc ho).settlePoint c) ?_)).sound (h.closeRecord r hc)
  rw [(settlePoint_calls _ c).2.1, closeRecord_eq, markClosed_closedOrder]
  simp

theorem State.AcceptedSound.releaseCrew {s : State} (h : s.AcceptedSound) {c : Call}
    (hc : s.findCall c.number = some c) : (s.releaseCrew c).AcceptedSound := by
  have taken : s.takenBy c.number = c.accepting := by simp [State.takenBy, hc]
  rw [releaseCrew_eq]
  refine h.lose c.number (fun m => ?_) fun k => ?_
  · rw [leaveCrew?_takenBy, takenBy_changeCall _ _ Call.released fun _ => rfl]
    split
    · rw [hc]; rfl
    · rfl
  · rw [leaveCrew?_accepted, State.changeCall_crew, taken]

theorem State.AcceptedSound.acceptCall {s : State} (h : s.AcceptedSound) {c : Call}
    (hc : s.findCall c.number = some c) (free : c.accepting = none) {crew : Nat} (range : 1 ≤ crew ∧ crew ≤ 48)
    (heard : Tick) : (s.acceptCall c crew heard).AcceptedSound := by
  rw [acceptCall_eq]
  refine (Acts.sameTaken ((Act.withdraw (s.acceptRecord c crew heard) c.number).one.trans
    (acts_sendToCrews _ _ _))).sound ?_
  have taken : s.takenBy c.number = none := by simp [State.takenBy, hc, free]
  have fresh : c.number ∉ (s.crew crew).accepted := fun hm => by
    rw [h.mem_iff range, taken] at hm
    cases hm
  have list : ∀ k, ((s.acceptRecord c crew heard).crew k).accepted =
      if k = crew then (s.crew k).accepted ++ [c.number] else (s.crew k).accepted := fun k => by
    unfold State.acceptRecord
    rw [State.changeCrew, State.post_crew, State.putCrew_crew_eq, State.changeCall_crew]
    by_cases hk : k = crew
    · subst hk; simp [range]
    · simp [hk]
  have taker : ∀ m, (s.acceptRecord c crew heard).takenBy m = if m = c.number then some crew else s.takenBy m :=
    fun m => by
      unfold State.takenBy
      rw [acceptRecord_findCall]
      by_cases hm : m = c.number
      · subst hm; simp [hc, Call.acceptedBy]
      · simp [hm]
  refine acceptedSound_of (fun k => ?_) fun k hk m => ?_
  · rw [list]
    split
    · next e => exact List.nodup_append.mpr ⟨h.once k, List.nodup_singleton _, by
        rintro a ha b hb rfl
        exact fresh (e ▸ List.mem_singleton.mp hb ▸ ha)⟩
    · exact h.once k
  · rw [list, taker]
    by_cases hm : m = c.number
    · subst hm
      by_cases hkc : k = crew
      · simp [hkc]
      · simp [hkc, Ne.symm hkc, h.mem_iff hk, taken]
    · by_cases hkc : k = crew <;> simp [hkc, hm, h.mem_iff range, h.mem_iff hk]

/-! ### Every move, run and step -/

/-- The load finds no call in the book, and installs crews that have taken none (R180). -/
theorem load_acceptedSound {s : State} (hb : s.BookSound) (hs : s.link.state = .starting) (img : Image)
    (r : LoadResult) :
    ((s.install img).setStore { (s.install img).store with loadResult := some r }).enterOnline.AcceptedSound := by
  generalize ht : ((s.install img).setStore { (s.install img).store with loadResult := some r }).enterOnline = t
  have hcalls : t.book.calls = s.book.calls := by
    subst ht
    simp [State.enterOnline, State.armSilence, State.install]
  have hcrew : ∀ k, (t.crew k).accepted = [] := fun k => by
    subst ht
    simp only [State.enterOnline, State.armSilence, State.post_crew, State.setLink_crew, State.setStore_crew,
      install_crew]
    rfl
  refine acceptedSound_of (fun k => by rw [hcrew]; exact List.nodup_nil) fun k _ n => ?_
  rw [hcrew, State.takenBy, State.findCall, hcalls, (hb.starting hs).1]
  exact ⟨nofun, nofun⟩

/-- Every operation taken whole keeps the accepted lists true to the calls. -/
theorem Move.acceptedSound {s t : State} (m : Move s t) (hb : s.BookSound) (hr : s.RegistryOk) (h : s.AcceptedSound) :
    t.AcceptedSound := by
  have still : (∀ c, (t.crew c).accepted = (s.crew c).accepted) → (∀ n, t.takenBy n = s.takenBy n) →
    t.AcceptedSound := fun e1 e2 => State.SameTaken.sound ⟨e1, e2⟩ h
  cases m with
  | other _ q => exact (State.SameTaken.of_book q.book q.accepted).sound h
  | escalate a _ => exact (Acts.sameTaken a).sound h
  | pool p l _ => exact still (fun _ => rfl) fun _ => rfl
  | raise u c pref slot running origin cls lad text new =>
    subst new
    obtain ⟨hu, -, -, -⟩ := obtainSlot_sound hb slot
    exact (((sameTaken_obtainSlot hb slot).trans (sameTaken_addCall (nextNumber_free hu.capacity) (by rfl))).trans
      (Acts.sameTaken (acts_startCall _ _ _))).sound h
  | press u p slot _ _ =>
    exact ((sameTaken_obtainSlot hb slot).trans (sameTaken_raiseFromPoint (obtainSlot_sound hb slot).1 p)).sound h
  | pressWaits p _ _ _ => exact still (fun _ => rfl) fun _ => rfl
  | pressed n p _ _ =>
    exact (sameTaken_changeCall s n Call.pressed fun c => ⟨⟨rfl, rfl, rfl, rfl, rfl, rfl, rfl, rfl⟩, rfl⟩).sound h
  | close r c found opened => exact h.closeCall hb r found opened
  | accept c crew heard found waits _ owner =>
    obtain ⟨e, he, rfl⟩ := owner
    obtain ⟨h1, h2, -⟩ := (hr.members e.pager e.owner).mp (List.mem_map.mpr ⟨e, he, rfl⟩)
    have := (hb.calls c (State.findCall_mem found)).accepting
    refine h.acceptCall found ?_ ⟨h1, h2⟩ heard
    rcases waits with e | e <;> simpa [e] using this
  | release c found _ => exact h.releaseCrew found
  | define st i l cls text _ _ _ =>
    refine still (fun k => ?_) fun n => ?_
    all_goals
      unfold State.definePoint
      split <;> rfl
  | undefine p _ _ => exact still (fun _ => rfl) fun _ => rfl
  | load img r hs hc => exact load_acceptedSound hb hs img r
  | sent f hcts found =>
    rcases freeSent_eq (s.setLink { s.link with sending := none, hcts := hcts }) f with ⟨-, e⟩ | ⟨n, hn, e⟩
    · rw [e] at still ⊢; exact still (fun _ => rfl) fun _ => rfl
    · rw [e] at still ⊢
      have e := sameTaken_without hb (hb.frees f n found hn)
      exact still (fun c => e.accepted c) fun m => e.taken m

theorem Moves.acceptedSound {s t : State} (m : Moves s t) (hb : s.BookSound) (hr : s.RegistryOk)
    (h : s.AcceptedSound) : t.AcceptedSound := by
  induction m with
  | refl => exact h
  | tail ms k ih =>
    exact k.acceptedSound (Moves.bookSound ms hb) ((Moves.prims ms).keeps Prim.registryOk hr) ih

theorem Run.acceptedSound {s t : State} (r : Run s t) (hb : s.BookSound) (hr : s.RegistryOk) (h : s.AcceptedSound) :
    t.AcceptedSound := by
  have registry : ∀ {u : State}, Run s u → u.RegistryOk := fun r =>
    (registrySound_iff _).mp (r.registrySound ((registrySound_iff s).mpr hr))
  have ready : ∀ u : State, u.SameTaken u.sendReady := fun u => by
    obtain ⟨f, rs, ks, e⟩ := u.sendReady_link
    rw [e]
    exact ⟨fun _ => rfl, fun _ => rfl⟩
  induction r with
  | refl => exact h
  | still r m _ ih => exact m.acceptedSound (r.bookSound hb) (registry r) ih
  | event r m ih => exact (ready _).sound (m.acceptedSound (r.bookSound hb) (registry r) ih)
  | reply r m _ x ih =>
    have e : ∀ u : State, ∀ l, u.SameTaken (u.setLink l) := fun _ _ => ⟨fun _ => rfl, fun _ => rfl⟩
    exact ((e _ _).trans (ready _)).sound (m.acceptedSound (r.bookSound hb) (registry r) ih)

theorem acksSound_iff (s : State) : s.AcksSound ↔ s.acksOk := ⟨fun ⟨h1, h2⟩ => ⟨h1, h2⟩, fun ⟨h1, h2⟩ => ⟨h1, h2⟩⟩

/-- Settles O58: a step is a run of moves, which keeps the accepted lists and the recent list, or a reset. -/
theorem stepsKeepTheAcceptedLists : Obligations.StepsKeepTheAcceptedLists := by
  refine ⟨fun s t hb hr h hs => ?_, fun s t h hs => ?_⟩
  · rcases step_does hs with r | ⟨cause, e, low, rfl⟩
    · exact r.acceptedSound hb ((registrySound_iff s).mp hr) h
    · exact afterReset_accepted _ _ _ _
  · rcases step_does hs with r | ⟨cause, e, low, rfl⟩
    · exact (acksSound_iff t).mpr (r.acksOk ((acksSound_iff s).mp h))
    · exact afterReset_acks _ _ _ _

end Sys2Proof.Machine
end

section
/-!
SUPPORT. What a request makes of the state it is taken in: the effect of its block, and the reply that joins the
queue (R166, R167). It settles the refusals of the call requests and the call-point requests (O17, O18, O20).
-/

namespace Sys2Proof.Machine

/-! ### The taking of a request -/

/-- An answer with its reply in the queue (R167). -/
def State.sends (kind tag : Byte) (a : Answer) : State := a.2.2.replying kind tag a.1 a.2.1

theorem sends_answer (kind tag : Byte) (s : State) (contents : List Byte) :
    State.sends kind tag (s.answer contents) = s.replying kind tag .ok contents := rfl

/-- A request taken is served in the state that has heard the plant computer, and answered. -/
theorem receiveFrame_sends {s : State} (h : s.TakesRequests) (k t : Byte) (p : List Byte)
    (hp : p.length ≤ Config.maxPayload) :
    s.receiveFrame k t p = State.sends (replyKind k) t (serve k p s.heard) := receiveFrame_taken s k t p h hp

theorem State.heard_findCall (s : State) (n : Nat) : s.heard.findCall n = s.findCall n := rfl
theorem State.heard_crew (s : State) (c : Nat) : s.heard.crew c = s.crew c := rfl

theorem State.heard_saving {s : State} (h : s.store.state = .idle) : s.heard.saving = false := by
  show decide (s.store.state = .saving) = false
  rw [h]
  rfl

theorem unlessSaving_idle {s : State} (h : s.store.state = .idle) (a : Answer) : s.heard.unlessSaving a = a := by
  unfold State.unlessSaving
  rw [State.heard_saving h]
  rfl

section
variable {s : State} (h : s.TakesRequests) (tag : Byte) (p : List Byte) (hp : p.length ≤ 250) {a : Answer}
include h hp

theorem exec_raise (ha : reqRaise p s.heard = a) : exec (.raise tag p) s = .next (State.sends 0x81#8 tag a) :=
  ha ▸ congrArg _ (receiveFrame_sends h 0x01#8 tag p hp)

theorem exec_clear (ha : reqClear p s.heard = a) : exec (.clear tag p) s = .next (State.sends 0x82#8 tag a) :=
  ha ▸ congrArg _ (receiveFrame_sends h 0x02#8 tag p hp)

theorem exec_cancel (ha : reqCancel p s.heard = a) : exec (.cancel tag p) s = .next (State.sends 0x83#8 tag a) :=
  ha ▸ congrArg _ (receiveFrame_sends h 0x03#8 tag p hp)

theorem exec_setCallpointDefine (ha : reqSetCallpoint p s.heard = a) :
    exec (.setCallpointDefine tag p) s = .next (State.sends 0x86#8 tag a) :=
  ha ▸ congrArg _ (receiveFrame_sends h 0x06#8 tag p hp)

theorem exec_setCallpointRemove (ha : reqSetCallpoint p s.heard = a) :
    exec (.setCallpointRemove tag p) s = .next (State.sends 0x86#8 tag a) :=
  ha ▸ congrArg _ (receiveFrame_sends h 0x06#8 tag p hp)

theorem exec_advance (ha : reqAdvance p s.heard = a) : exec (.advance tag p) s = .next (State.sends 0x8E#8 tag a) :=
  ha ▸ congrArg _ (receiveFrame_sends h 0x0E#8 tag p hp)

theorem exec_direct (ha : reqDirect p s.heard = a) : exec (.direct tag p) s = .next (State.sends 0x8F#8 tag a) :=
  ha ▸ congrArg _ (receiveFrame_sends h 0x0F#8 tag p hp)

theorem exec_queryCall (ha : reqQueryCall p s.heard = a) : exec (.queryCall tag p) s = .next (State.sends 0x84#8 tag a) :=
  ha ▸ congrArg _ (receiveFrame_sends h 0x04#8 tag p hp)

theorem exec_listCalls (ha : reqListCalls p s.heard = a) : exec (.listCalls tag p) s = .next (State.sends 0x85#8 tag a) :=
  ha ▸ congrArg _ (receiveFrame_sends h 0x05#8 tag p hp)

theorem exec_listAcks (ha : reqListAcks p s.heard = a) : exec (.listAcks tag p) s = .next (State.sends 0x90#8 tag a) :=
  ha ▸ congrArg _ (receiveFrame_sends h 0x10#8 tag p hp)

theorem exec_queryQueue (ha : reqQueryQueue p s.heard = a) : exec (.queryQueue tag p) s = .next (State.sends 0x91#8 tag a) :=
  ha ▸ congrArg _ (receiveFrame_sends h 0x11#8 tag p hp)

theorem exec_queryStation (ha : reqQueryStation p s.heard = a) : exec (.queryStation tag p) s = .next (State.sends 0x93#8 tag a) :=
  ha ▸ congrArg _ (receiveFrame_sends h 0x13#8 tag p hp)

theorem exec_queryBeacons (ha : reqQueryBeacons p s.heard = a) : exec (.queryBeacons tag p) s = .next (State.sends 0x95#8 tag a) :=
  ha ▸ congrArg _ (receiveFrame_sends h 0x15#8 tag p hp)

theorem exec_queryPart (ha : reqQueryPart p s.heard = a) : exec (.queryPart tag p) s = .next (State.sends 0x99#8 tag a) :=
  ha ▸ congrArg _ (receiveFrame_sends h 0x19#8 tag p hp)

end

/-! ### The call a request names (R18) -/

/-- A number that names no open call is refused, with the result R18 gives it. -/
theorem onOpenCall_refused (s : State) (n : Nat) (f : Call → Answer) (r : Result)
    (h : n = 0 ∧ r = .badValue ∨ n ≠ 0 ∧ (s.findCall n = none ∧ r = .noSuchCall ∨
      ∃ c, s.findCall n = some c ∧ c.state = .closed ∧ r = .callClosed)) : s.onOpenCall n f = s.refuse r := by
  unfold State.onOpenCall
  rcases h with ⟨rfl, rfl⟩ | ⟨hn, ⟨hc, rfl⟩ | ⟨c, hc, hs, rfl⟩⟩
  · rfl
  · rw [if_neg hn, hc]
  · rw [if_neg hn, hc]
    exact if_pos hs

/-- A number that names an open call finds it. -/
theorem onOpenCall_found {s : State} {n : Nat} {c : Call} (f : Call → Answer) (hn : n ≠ 0)
    (hc : s.findCall n = some c) (ho : c.state ≠ .closed) : s.onOpenCall n f = f c := by
  unfold State.onOpenCall
  rw [if_neg hn, hc]
  exact if_neg ho

/-- Settles O18: each of the four requests finds its call before anything else. -/
theorem namedCallIsFoundFirst : Obligations.NamedCallIsFoundFirst := by
  intro s i tag kind hi lo rest r h hi' hr
  have found : ∀ f, s.heard.onOpenCall (dec2 hi lo) f = s.heard.refuse r := fun f => onOpenCall_refused _ _ f r hr
  have two : [hi, lo].length ≤ 250 := Nat.le_add_left 2 248
  rcases hi' with ⟨rfl, rfl⟩ | ⟨rfl, rfl⟩ | ⟨rfl, rfl⟩ | ⟨rfl, hl, rfl⟩
  · exact exec_clear h tag _ two (found _)
  · exact exec_cancel h tag _ two (found _)
  · exact exec_advance h tag _ two (found _)
  · match rest, hl with
    | [k, whi, wlo, reps], _ => exact exec_direct h tag [hi, lo, k, whi, wlo, reps] (by simp) (found _)

/-! ### The refusals of RAISE, ADVANCE and DIRECT -/

/-- A count read back from the character that carried it. -/
theorem toNat_count {n : Nat} (h : n < 256) : (BitVec.ofNat 8 n : Byte).toNat = n := by
  rw [BitVec.toNat_ofNat]
  exact Nat.mod_eq_of_lt h

theorem readRaise_eq (c l o p : Byte) {text : Text} (h : text.length ≤ 245) :
    readRaise ([c, l, o, p, BitVec.ofNat 8 text.length] ++ text) =
      some ⟨c.toNat, l.toNat, o.toNat, p.toNat, text⟩ := by
  show (if text.length = (BitVec.ofNat 8 text.length : Byte).toNat then _ else _) = _
  rw [toNat_count (by omega)]
  exact if_pos rfl

theorem within_eq_false_iff (lo hi n : Nat) : within lo hi n = false ↔ n < lo ∨ hi < n := by
  unfold within
  rw [decide_eq_false_iff_not]
  omega

theorem ofCode_eq_none {n : Nat} (h : 3 < n) : Cls.ofCode n = none := by
  unfold Cls.ofCode
  split <;> simp_all

theorem ofCode_isSome {n : Nat} (h : n ≤ 3) : ∃ k, Cls.ofCode n = some k := by
  interval_cases n <;> exact ⟨_, rfl⟩

theorem obtainSlot_full {s : State} (h : 96 ≤ s.book.calls.length) (ho : s.book.closedOrder = []) :
    s.obtainSlot = none := by
  unfold State.obtainSlot
  rw [if_neg (show ¬ s.book.calls.length < Config.maxCalls from Nat.not_lt.mpr h), ho]

/-- RAISE refuses a value out of range (R9). -/
theorem reqRaise_badValue (s : State) {c l o p : Byte} {text : Text} (ht : text.length ≤ 245)
    (bad : 3 < c.toNat ∨ l.toNat = 0 ∨ 16 < l.toNat ∨ o.toNat = 0 ∨ 12 < o.toNat ∨ 48 < p.toNat) :
    reqRaise ([c, l, o, p, BitVec.ofNat 8 text.length] ++ text) s = s.refuse .badValue := by
  unfold reqRaise
  rw [readRaise_eq c l o p ht, State.withOperands]
  dsimp only
  split
  · rfl
  · next cls hc =>
    have : ¬ 3 < c.toNat := fun h3 => nomatch (ofCode_eq_none h3).symm.trans hc
    refine if_pos ?_
    simp only [Bool.or_eq_true, Bool.not_eq_true', within_eq_false_iff]
    omega

/-- RAISE with its values in range obtains a slot or finds the book full (R5, R9). -/
theorem reqRaise_inRange (s : State) {c l o p : Byte} {text : Text} (ht : text.length ≤ 245) {cls : Cls}
    (hc : Cls.ofCode c.toNat = some cls) (hl : 1 ≤ l.toNat ∧ l.toNat ≤ 16) (ho : 1 ≤ o.toNat ∧ o.toNat ≤ 12)
    (hp : p.toNat ≤ 48) : reqRaise ([c, l, o, p, BitVec.ofNat 8 text.length] ++ text) s =
      match s.obtainSlot with
      | none => s.refuse .bookFull
      | some t => ((t.addCall (newCall t.book.nextNumber .plantComputer o.toNat cls l.toNat (cleanText 40 text)
          (optRef p.toNat) t.clock)).startCall t.book.nextNumber (optRef p.toNat)).answer
            (enc2 t.book.nextNumber) := by
  unfold reqRaise
  rw [readRaise_eq c l o p ht, State.withOperands]
  dsimp only
  rw [hc]
  dsimp only
  refine (if_neg ?_).trans rfl
  simp only [Bool.or_eq_true, Bool.not_eq_true', within_eq_false_iff]
  omega

/-- Settles O17: the checks of RAISE, ADVANCE and DIRECT in their order. -/
theorem callRequestsAreRefused : Obligations.CallRequestsAreRefused := by
  refine ⟨fun s tag c l o p text h ht => ?_, fun s tag hi lo k whi wlo r c h hn hc ho => ?_⟩
  · have size : ([c, l, o, p, BitVec.ofNat 8 text.length] ++ text).length ≤ 250 := by simp; omega
    refine ⟨fun bad => exec_raise h tag _ size (reqRaise_badValue _ ht bad), fun hc hl1 hl2 ho1 ho2 hp full order => ?_⟩
    obtain ⟨cls, hcls⟩ := ofCode_isSome hc
    refine exec_raise h tag _ size (a := s.heard.refuse .bookFull) ?_
    rw [reqRaise_inRange _ ht hcls ⟨hl1, hl2⟩ ⟨ho1, ho2⟩ hp, obtainSlot_full (s := s.heard) full order]
  · have found : ∀ f, s.heard.onOpenCall (dec2 hi lo) f = f c := fun f => onOpenCall_found f hn hc ho
    have six : [hi, lo, k, whi, wlo, r].length ≤ 250 := Nat.le_add_left 6 244
    refine ⟨fun hs => exec_advance h tag [hi, lo] (by simp) ((found _).trans (if_neg hs)), fun bad => ?_,
      fun k1 k2 hd => ?_, fun k1 k2 hd hs => ?_⟩
    · refine exec_direct h tag _ six ((found _).trans (if_pos ?_))
      rw [Bool.not_eq_true', within_eq_false_iff]
      show k.toNat < 1 ∨ 48 < k.toNat
      omega
    all_goals
      have range : ¬ (!within 1 48 k.toNat) = true := by
        rw [Bool.not_eq_true', within_eq_false_iff]
        omega
    · refine exec_direct h tag _ six ((found _).trans ((if_neg range).trans (if_pos ?_)))
      rw [State.heard_crew, hd]
      rfl
    · refine exec_direct h tag _ six ((found _).trans ((if_neg range).trans ((if_neg ?_).trans (if_pos hs))))
      rw [State.heard_crew, hd]
      nofun

/-! ### The call-point requests (R12) -/

theorem readPoint_eq (st i a l c : Byte) {text : Text} (h : text.length ≤ 244) :
    readPoint ([st, i, a, l, c, BitVec.ofNat 8 text.length] ++ text) =
      some ⟨st.toNat, i.toNat, a.toNat, l.toNat, c.toNat, text⟩ := by
  show (if text.length = (BitVec.ofNat 8 text.length : Byte).toNat then _ else _) = _
  rw [toNat_count (by omega)]
  exact if_pos rfl

/-- SET_CALLPOINT, the store idle, acts by the action it carries. -/
theorem reqSetCallpoint_eq {s : State} (idle : s.store.state = .idle) (st i a l c : Byte) {text : Text}
    (ht : text.length ≤ 244) : reqSetCallpoint ([st, i, a, l, c, BitVec.ofNat 8 text.length] ++ text) s.heard =
      if a.toNat = 0 then s.heard.callpointDefine ⟨st.toNat, i.toNat, a.toNat, l.toNat, c.toNat, text⟩
      else if a.toNat = 1 then s.heard.callpointRemove ⟨st.toNat, i.toNat, a.toNat, l.toNat, c.toNat, text⟩
      else s.heard.refuse .badValue := by
  unfold reqSetCallpoint
  rw [readPoint_eq st i a l c ht, State.withOperands, unlessSaving_idle idle]

theorem callpointDefine_badValue (s : State) (o : PointOperands)
    (bad : 3 < o.cls ∨ o.station = 0 ∨ 12 < o.station ∨ o.input = 0 ∨ 4 < o.input ∨ o.ladder = 0 ∨ 16 < o.ladder) :
    s.callpointDefine o = s.refuse .badValue := by
  unfold State.callpointDefine
  split
  · rfl
  · next cls hc =>
    have : ¬ 3 < o.cls := fun h3 => nomatch (ofCode_eq_none h3).symm.trans hc
    refine if_pos ?_
    simp only [Bool.or_eq_true, Bool.not_eq_true', within_eq_false_iff]
    omega

theorem callpointRemove_badValue (s : State) (o : PointOperands)
    (bad : o.station = 0 ∨ 12 < o.station ∨ o.input = 0 ∨ 4 < o.input) :
    s.callpointRemove o = s.refuse .badValue := by
  unfold State.callpointRemove
  refine if_pos ?_
  simp only [Bool.or_eq_true, Bool.not_eq_true', within_eq_false_iff]
  omega

theorem ofCode_rank (cls : Cls) : Cls.ofCode cls.rank = some cls := by cases cls <;> rfl

/-- DEFINE with its values in range finds the table full, or writes the entry (R12). -/
theorem callpointDefine_inRange (s : State) {o : PointOperands} {cls : Cls} (hc : Cls.ofCode o.cls = some cls)
    (hst : 1 ≤ o.station ∧ o.station ≤ 12) (hi : 1 ≤ o.input ∧ o.input ≤ 4) (hl : 1 ≤ o.ladder ∧ o.ladder ≤ 16) :
    s.callpointDefine o =
      if s.findPoint o.station o.input = none ∧ Config.maxPoints ≤ s.book.points.length then s.refuse .tableFull
      else (s.definePoint o.station o.input o.ladder cls (cleanText 40 o.text)).answer [] := by
  unfold State.callpointDefine
  rw [hc]
  dsimp only
  refine (if_neg ?_).trans rfl
  simp only [Bool.or_eq_true, Bool.not_eq_true', within_eq_false_iff]
  omega

/-- REMOVE with its values in range acts by the entry of the key (R12). -/
theorem callpointRemove_inRange (s : State) {o : PointOperands} (hst : 1 ≤ o.station ∧ o.station ≤ 12)
    (hi : 1 ≤ o.input ∧ o.input ≤ 4) : s.callpointRemove o =
      match s.findPoint o.station o.input with
      | none => s.refuse .noSuchEntry
      | some p => match p.state with
        | .opened _ => s.refuse .wrongState
        | .idle | .pending => (s.removePoint o.station o.input).answer [] := by
  unfold State.callpointRemove
  refine (if_neg ?_).trans rfl
  simp only [Bool.or_eq_true, Bool.not_eq_true', within_eq_false_iff]
  omega

/-- Settles O20: SET_CALLPOINT's checks in order, and the table it writes. -/
theorem callPointsAreSet : Obligations.CallPointsAreSet := by
  refine ⟨fun s tag st inp a lad cls text h idle ht bad => ?_,
    fun s tag st inp lad cls text h idle st1 st2 i1 i2 l1 l2 ht => ?_⟩
  · have size : ([st, inp, a, lad, cls, BitVec.ofNat 8 text.length] ++ text).length ≤ 250 := by simp; omega
    have h0 : a = 0#8 → a.toNat = 0 := fun e => by rw [e]; rfl
    have h1 : a.toNat = 1 → a = 1#8 := fun e => BitVec.eq_of_toNat_eq e
    refine ⟨fun ha => exec_setCallpointDefine h tag _ size (a := s.heard.refuse .badValue) ?_,
      fun ha => exec_setCallpointRemove h tag _ size (a := s.heard.refuse .badValue) ?_⟩
    · rw [reqSetCallpoint_eq idle st inp a lad cls ht]
      split
      · next ha0 =>
        refine callpointDefine_badValue _ _ ?_
        dsimp only
        omega
      · rw [if_neg fun e => ha (h1 e)]
    · subst ha
      rw [reqSetCallpoint_eq idle st inp _ lad cls ht, if_neg (by decide), if_pos (by decide)]
      refine callpointRemove_badValue _ _ ?_
      have h10 : (1#8 : Byte).toNat = 1 := rfl
      simp only [show ((1#8 : Byte) = 0#8) = False by decide, false_and, or_false] at bad
      dsimp only
      omega
  · have byte : ∀ n : Nat, n < 256 → (BitVec.ofNat 8 n : Byte).toNat = n := fun n hn => toNat_count hn
    have size : ∀ a l k : Byte, ([BitVec.ofNat 8 st, BitVec.ofNat 8 inp, a, l, k, BitVec.ofNat 8 text.length] ++
        text).length ≤ 250 := fun a l k => by simp; omega
    have rank : cls.rank < 256 := by cases cls <;> decide
    have define : reqSetCallpoint ([BitVec.ofNat 8 st, BitVec.ofNat 8 inp, 0#8, BitVec.ofNat 8 lad,
        BitVec.ofNat 8 cls.rank, BitVec.ofNat 8 text.length] ++ text) s.heard =
        if s.findPoint st inp = none ∧ Config.maxPoints ≤ s.book.points.length then s.heard.refuse .tableFull
        else (s.heard.definePoint st inp lad cls (cleanText 40 text)).answer [] := by
      rw [reqSetCallpoint_eq idle _ _ _ _ _ ht, if_pos (by rfl), byte st (by omega), byte inp (by omega),
        byte lad (by omega), byte _ rank]
      exact callpointDefine_inRange _ (ofCode_rank cls) ⟨st1, st2⟩ ⟨i1, i2⟩ ⟨l1, l2⟩
    have remove : ∀ l k, reqSetCallpoint ([BitVec.ofNat 8 st, BitVec.ofNat 8 inp, 1#8, l, k,
        BitVec.ofNat 8 text.length] ++ text) s.heard = match s.findPoint st inp with
          | none => s.heard.refuse .noSuchEntry
          | some p => match p.state with
            | .opened _ => s.heard.refuse .wrongState
            | .idle | .pending => (s.heard.removePoint st inp).answer [] := fun l k => by
      rw [reqSetCallpoint_eq idle _ _ _ _ _ ht, if_neg (by decide), if_pos (by decide), byte st (by omega),
        byte inp (by omega)]
      exact callpointRemove_inRange _ ⟨st1, st2⟩ ⟨i1, i2⟩
    refine ⟨fun hf hl => ?_, fun p hf => ?_, fun hf hl => ?_, fun p l k hf hp => ?_, fun p n l k hf hp => ?_,
      fun l k hf => ?_⟩
    · refine (exec_setCallpointDefine h tag _ (size _ _ _) define).trans (congrArg Host.Outcome.next ?_)
      rw [if_neg fun hfull => Nat.not_le.mpr hl hfull.2, definePoint_new s.heard st inp lad cls _ hf]
      rfl
    · refine (exec_setCallpointDefine h tag _ (size _ _ _) define).trans (congrArg Host.Outcome.next ?_)
      rw [if_neg (show ¬ (s.findPoint st inp = none ∧ Config.maxPoints ≤ s.book.points.length) from
        fun hfull => nomatch hf.symm.trans hfull.1), definePoint_known s.heard st inp lad cls _ p hf]
      rfl
    · refine (exec_setCallpointDefine h tag _ (size _ _ _) define).trans (congrArg Host.Outcome.next ?_)
      rw [if_pos ⟨hf, hl⟩]
      rfl
    · refine (exec_setCallpointRemove h tag _ (size _ _ _) (remove l k)).trans (congrArg Host.Outcome.next ?_)
      rw [hf]
      dsimp only
      cases hs : p.state with
      | opened n => exact absurd hs (hp n)
      | idle => rfl
      | pending => rfl
    · refine (exec_setCallpointRemove h tag _ (size _ _ _) (remove l k)).trans (congrArg Host.Outcome.next ?_)
      rw [hf]
      dsimp only
      rw [hp]
      rfl
    · refine (exec_setCallpointRemove h tag _ (size _ _ _) (remove l k)).trans (congrArg Host.Outcome.next ?_)
      rw [hf]
      rfl

end Sys2Proof.Machine
end

section
/-!
SUPPORT. The outbound path (R168, R169, R171): which frame starts, and what the end of one does. It settles O12.
-/

namespace Sys2Proof.Machine

/-- HRDY is asserted while the link runs, at most 6 replies wait and no reset is pending (R168). -/
theorem State.hrdy_iff (s : State) : s.hrdy = true ↔ (s.link.state = .online ∨ s.link.state = .local) ∧
    s.link.replies.length ≤ 6 ∧ s.link.resetPending = false := by
  unfold State.hrdy
  cases s.link.state <;> simp

/-- The state that has found HCTS at a level (R169). -/
def State.withHcts (s : State) (h : Bool) : State := s.setLink { s.link with hcts := h }

theorem exec_hctsAsserted (s : State) : exec .hctsAsserted s = .next (s.withHcts true).startFrame := rfl

theorem State.withHcts_self {s : State} {h : Bool} (e : s.link.hcts = h) : s.withHcts h = s := by
  subst e
  rfl

theorem State.sendReady_of_deasserted {s : State} (h : s.link.hcts = false) : s.sendReady = s := by
  unfold State.sendReady
  rw [h]
  rfl

/-! ### The choice of the next frame -/

theorem startFrame_still {s : State} (h : s.link.state = .starting ∨ s.link.sending ≠ none) : s.startFrame = s :=
  if_pos h

section
variable {s : State} (running : s.link.state ≠ .starting) (free : s.link.sending = none)
include running free

theorem startFrame_reply {r : Reply} {rest : List Reply} (hr : s.link.replies = r :: rest) :
    s.startFrame = s.startReply r rest := by
  unfold State.startFrame
  rw [if_neg (fun h => h.elim running fun h => h free), hr]

theorem startFrame_none (hr : s.link.replies = []) (hk : s.link.notices = []) : s.startFrame = s := by
  unfold State.startFrame
  rw [if_neg (fun h => h.elim running fun h => h free), hr, hk]

theorem startFrame_notice {k : NoticeKey} {ks : List NoticeKey} (hr : s.link.replies = [])
    (hk : s.link.notices = k :: ks) :
    s.startFrame = s.setLink { s.link with sending := s.noticeFrame k, notices := ks } := by
  unfold State.startFrame
  rw [if_neg (fun h => h.elim running fun h => h free), hr, hk]

end

/-- The next frame of a reply, written out (R191, R192). -/
theorem Reply.frame_eq (r : Reply) : r.frame =
    { chars := encodeFrame r.kind r.tag (BitVec.ofNat 8 r.result.code ::
        BitVec.ofNat 8 (r.segment + if r.contents.length ≤ 248 * r.segment then 0x80 else 0) ::
        (r.contents.drop (248 * (r.segment - 1))).take 248)
      frees := none
      resets := decide (r.kind = 0x9A#8 ∧ r.result = .ok ∧ r.contents.length ≤ 248 * r.segment) } := by
  by_cases h : r.contents.length ≤ 248 * r.segment <;>
    simp [Reply.frame, lastSegment, segmentChar, segmentOf, Config.segmentLen, enc1, h]

theorem startReply_eq (s : State) (r : Reply) (rest : List Reply) : s.startReply r rest = { s with link := { s.link with
    replies := if r.contents.length ≤ 248 * r.segment then rest else { r with segment := r.segment + 1 } :: rest
    sending := some r.frame } } := by
  by_cases h : r.contents.length ≤ 248 * r.segment <;>
    simp [State.startReply, State.setLink, lastSegment, Config.segmentLen, h]

theorem noticeFrame_call {s : State} {n : Nat} {c : Call} (h : s.findCall n = some c) :
    s.noticeFrame (.call n) = some ⟨encodeFrame 0x40#8 0#8 (callNotice c),
      if c.state = .closed then some n else none, false⟩ := by
  unfold State.noticeFrame
  dsimp only
  rw [h]

/-! ### The end of a frame -/

theorem execFrameSent_free {s : State} (free : s.link.sending = none) (h : Bool) :
    exec (.frameSent h) s = .next (s.withHcts h).sendReady := by
  show execFrameSent h s = _
  unfold execFrameSent
  rw [free]
  rfl

theorem execFrameSent_sent {s : State} {f : Frame} (hf : s.link.sending = some f) (hr : f.resets = false) (h : Bool) :
    exec (.frameSent h) s =
      .next ((s.setLink { s.link with sending := none, hcts := h }).freeSent f).sendReady := by
  show execFrameSent h s = _
  unfold execFrameSent
  rw [hf]
  dsimp only
  rw [hr]
  rfl

/-- Settles O12, by the cases of `State.startFrame` and of the end of a frame. -/
theorem framesStartAndEnd : Obligations.FramesStartAndEnd := by
  refine ⟨State.hrdy_iff, ⟨fun s h => ?_, fun s running free => ⟨fun r rest hr => ?_, fun hr hk => ?_, fun ks hr =>
    ⟨fun n c hk hc => ?_, fun c hk => ?_, fun st hk => ?_, fun hk => ?_⟩⟩⟩, fun s => ⟨fun h => ?_, fun h => ?_,
    fun free => ⟨?_, ?_⟩⟩, fun s f hf hr hn => ⟨?_, ?_⟩, fun s u f n hf hr hn hu => ⟨?_, ?_⟩⟩
  · rw [exec_hctsAsserted, startFrame_still (s := s.withHcts true) h]
    rfl
  · rw [exec_hctsAsserted, startFrame_reply (s := s.withHcts true) running free hr, startReply_eq, Reply.frame_eq]
    rfl
  · rw [exec_hctsAsserted, startFrame_none (s := s.withHcts true) running free hr hk]
    rfl
  · rw [exec_hctsAsserted, startFrame_notice (s := s.withHcts true) running free hr hk,
      noticeFrame_call (s := s.withHcts true) hc]
    rfl
  · rw [exec_hctsAsserted, startFrame_notice (s := s.withHcts true) running free hr hk]
    rfl
  · rw [exec_hctsAsserted, startFrame_notice (s := s.withHcts true) running free hr hk]
    rfl
  · rw [exec_hctsAsserted, startFrame_notice (s := s.withHcts true) running free hr hk]
    rfl
  · rw [exec_hctsAsserted, State.withHcts_self h, State.sendReady, h]
    rfl
  · exact State.sendReady_of_deasserted h
  · rw [execFrameSent_free free, State.sendReady_of_deasserted (by rfl)]
    rfl
  · rw [execFrameSent_free free]
    rfl
  · rw [execFrameSent_sent hf hr, State.freeSent, hn, State.sendReady_of_deasserted (by rfl)]
    rfl
  · rw [execFrameSent_sent hf hr, State.freeSent, hn]
    rfl
  · subst hu
    rw [execFrameSent_sent hf hr, State.freeSent, hn]
    exact congrArg Host.Outcome.next (State.sendReady_of_deasserted (by rfl))
  · subst hu
    rw [execFrameSent_sent hf hr, State.freeSent, hn]
    rfl

end Sys2Proof.Machine
end

section
/-!
SUPPORT. The end of the start-up load: the tables it installs (R180). It settles O4.
-/

namespace Sys2Proof.Machine

/-- The link entering ONLINE, field by field (R173). -/
theorem enterOnline_eq (s : State) : s.enterOnline = { s with link := { s.link with
    state := .online
    silence := some (s.clock + BitVec.ofNat 24 (s.store.params.silence * 8))
    notices := if .part ∈ s.link.notices then s.link.notices else s.link.notices ++ [.part] } } := by
  unfold State.enterOnline State.armSilence State.post tickAfter
  by_cases hm : NoticeKey.part ∈ s.link.notices <;> simp [State.setLink, hm]

/-- The record a number gives in a table made from one that has it. -/
theorem row_map_of_getElem? {α β : Type} {n : Nat} (f : α → β) (t : Vector α n) (k : Nat) (d : β) {x : α} (hk : 1 ≤ k)
    (hx : t[k - 1]? = some x) : row (t.map f) k d = f x := by
  rw [row_eq_getElem? _ _ _ hk, Vector.toList_map, List.getElem?_map, Vector.getElem?_toList, hx]
  rfl

theorem pagerEntry?_eq_some_iff {s : State} (h : (s.registry.directory.map PagerEntry.pager).Nodup) (pager : Nat)
    (e : PagerEntry) : s.pagerEntry? pager = some e ↔ e ∈ s.registry.directory ∧ e.pager = pager := by
  constructor
  · intro he
    exact ⟨List.mem_of_find?_eq_some he, by simpa using List.find?_some he⟩
  · rintro ⟨he, rfl⟩
    cases hf : s.pagerEntry? e.pager with
    | none =>
      have := List.find?_eq_none.mp hf e he
      simp at this
    | some x =>
      have hx : x.pager = e.pager := by simpa using List.find?_some hf
      rw [List.inj_on_of_nodup_map h (List.mem_of_find?_eq_some hf) he hx]

/-- The directory the load makes, entry by entry (R42, R180). -/
theorem install_pagerEntry? (s : State) {img : Image} (hc : img.consistent = true) (pager : Nat) (e : PagerEntry) :
    (s.install img).pagerEntry? pager = some e ↔ e.pager = pager ∧ e.location = none ∧ 1 ≤ e.owner ∧
      ∃ x, img.crews[e.owner - 1]? = some x ∧ x.defined = true ∧ pager ∈ x.members := by
  have hdir : (s.install img).registry.directory = loadedDirectory (img.crews.map StoredCrew.loaded).toList := rfl
  rw [pagerEntry?_eq_some_iff (install_registry s img hc).entries, hdir, (loadedDirectory_perm _).mem_iff,
    mem_memberEntries]
  simp only [mem_numbered, Vector.toList_map, List.getElem?_map, Option.map_eq_some_iff, Vector.getElem?_toList]
  constructor
  · rintro ⟨⟨hl, _, ⟨hk, x, hx, rfl⟩, hd, hp⟩, rfl⟩
    exact ⟨rfl, hl, hk, x, hx, hd, hp⟩
  · rintro ⟨rfl, hl, hk, x, hx, hd, hp⟩
    exact ⟨⟨hl, _, ⟨hk, x, hx, rfl⟩, hd, hp⟩, rfl⟩

/-- The load with a consistent image installs it in every block (R180). -/
theorem load_installs (s : State) {img : Image} (hc : img.consistent = true) (r : LoadResult) :
    s.Installed ((s.install img).setStore { (s.install img).store with loadResult := some r }).enterOnline img r := by
  rw [enterOnline_eq]
  refine ⟨rfl, rfl, rfl, fun k h1 _ x hx => ?_, fun pager e => install_pagerEntry? s hc pager e,
    fun k h1 _ l hl => ?_, rfl, fun k h1 _ x hx hd => ?_, fun k h1 _ x hx hd => ?_, rfl, fun z h1 _ v hv => ?_, ?_,
    rfl, rfl, rfl, rfl, rfl⟩
  · exact row_map_of_getElem? StoredCrew.loaded img.crews k .undefined h1 hx
  · exact row_map_of_getElem? loadedPool img.pools k _ h1 hl
  · refine (row_map_of_getElem? (StoredStation.loaded s.clock) img.stations k .undefined h1 hx).trans ?_
    exact if_pos hd
  · refine (row_map_of_getElem? (StoredStation.loaded s.clock) img.stations k .undefined h1 hx).trans ?_
    exact if_neg (by simp [hd])
  · refine (row_map_of_getElem? restingBeacon img.idle z _ h1 hv).trans ?_
    cases v <;> rfl
  · cases hx : s.link.rx <;> simp [State.install, State.setStore, hx, Receiver.atRate]

/-- The end of the load, while the controller runs. -/
theorem exec_startUpLoadEnd {s : State} (hs : s.link.state = .starting) (hr : s.store.rstnLow = false)
    (found : EepromRead) {r : LoadResult} {img : Image} (hl : s.store.eeprom.load found = (r, img)) :
    ∃ t, exec (.startUpLoadEnd found) s = .next t.sendReady ∧ s.Installed t img r := by
  have hc := load_consistent found s.store.eeprom
  rw [hl] at hc
  refine ⟨_, ?_, load_installs s hc r⟩
  show execStartUpLoadEnd found s = _
  unfold execStartUpLoadEnd
  rw [if_pos ⟨hs, by simp [hr]⟩, hl]

/-- Settles O4: the load installs what `Eeprom.load` gives, which is consistent in every case. -/
theorem startUpLoadInstallsTheTables : Obligations.StartUpLoadInstallsTheTables := by
  refine ⟨fun s img hs hr he hc => exec_startUpLoadEnd hs hr .held ?_, fun s found r hs hr hcase =>
    exec_startUpLoadEnd hs hr found ?_⟩
  · rw [he]
    exact if_pos hc
  · rcases hcase with ⟨he, hf, rfl⟩ | ⟨he, rfl, rfl⟩ | ⟨he, rfl⟩ | ⟨img, he, hbad, rfl⟩
    · rw [he]
      cases found with
      | noAnswer => exact absurd rfl hf
      | held => rfl
      | checkDisagrees => rfl
    · rw [he]; rfl
    · rw [he]; rfl
    · rw [he]
      cases found with
      | held => exact if_neg (by simpa using hbad)
      | noAnswer => rfl
      | checkDisagrees => rfl

end Sys2Proof.Machine
end

section
/-!
SUPPORT. The layouts of notices and replies, character by character (R188 to R193), and the queries that give them. It
settles O39.
-/

namespace Sys2Proof.Machine

/-! ### The conventions (R188) -/

/-- The character of an optional reference. -/
def refChar (x : Option Nat) : Byte := match x with | none => 0#8 | some y => BitVec.ofNat 8 y

/-- The characters of an optional tick. -/
def tickChars (x : Option Tick) : List Byte := match x with | none => [0#8, 0#8, 0#8] | some y => enc3 y.toNat

/-- The characters of the source of a call. -/
def sourceChars (x : CallSource) : List Byte := match x with
  | .plantComputer => [0#8, 0#8, 0#8]
  | .callPoint st i => [1#8, BitVec.ofNat 8 st, BitVec.ofNat 8 i]

/-- The characters of the time from a raise to the acceptance (R3). -/
def acceptChars (r : Tick) (x : Option Tick) : List Byte :=
  match x with | none => [0#8, 0#8, 0#8] | some a => enc3 (a - r).toNat

/-- The characters of the time from the acceptance to the arrival (R3). -/
def arriveChars (x y : Option Tick) : List Byte :=
  match x, y with | some a, some o => enc3 (o - a).toNat | _, _ => [0#8, 0#8, 0#8]

/-- A bit of a character that carries several. -/
def bitValue (b : Bool) (k : Nat) : Nat := if b then 2 ^ k else 0

theorem encRef_eq (x : Option Nat) : encRef x = [refChar x] := by cases x <;> rfl

theorem encOptTick_eq (x : Option Tick) : encOptTick x = tickChars x := by cases x <;> rfl

theorem encSource_eq (x : CallSource) : encSource x = sourceChars x := by cases x <;> rfl

theorem encResponse_accept (r : Tick) (x : Option Tick) : encOptTick (response (some r) x) = acceptChars r x := by
  cases x with
  | none => exact encOptTick_eq none
  | some a => rfl

theorem encResponse_arrive (x y : Option Tick) : encOptTick (response x y) = arriveChars x y := by
  cases x with
  | none => cases y <;> exact encOptTick_eq none
  | some a => cases y with
    | none => exact encOptTick_eq none
    | some o => rfl

theorem encList1_eq (xs : List Nat) : encList1 xs = BitVec.ofNat 8 xs.length :: xs.map (BitVec.ofNat 8) := by
  rw [List.map_eq_flatMap]
  rfl

theorem encList2_eq (xs : List Nat) : encList2 xs = BitVec.ofNat 8 xs.length :: xs.flatMap enc2 := rfl

theorem encBool_eq (b : Bool) : encBool b = [if b then 1#8 else 0#8] := by cases b <;> rfl

theorem bits_three (a b c : Bool) : bits [a, b, c] = bitValue a 0 + bitValue b 1 + bitValue c 2 := by
  revert a b c
  decide

theorem bits_six (a b c d e f : Bool) : bits [a, b, c, d, e, f] =
    bitValue a 0 + bitValue b 1 + bitValue c 2 + bitValue d 3 + bitValue e 4 + bitValue f 5 := by
  revert a b c d e f
  decide

/-! ### Notices and blocks -/

/-- The call notice, character by character (11.3). -/
theorem callNotice_eq (c : Call) : callNotice c =
    enc2 c.number ++ [BitVec.ofNat 8 c.state.code, BitVec.ofNat 8 (reasonCode c.reason)] ++ sourceChars c.source ++
      [BitVec.ofNat 8 c.origin, BitVec.ofNat 8 c.cls.rank, BitVec.ofNat 8 c.ladder, refChar c.preferred,
        BitVec.ofNat 8 c.stepIndex,
        BitVec.ofNat 8 (bitValue c.directed 0 + bitValue c.referred 1 + bitValue c.forceWide 2),
        BitVec.ofNat 8 c.restarts] ++
      enc3 c.stepStart.toNat ++ enc2 c.window ++ enc2 c.interval ++
      [BitVec.ofNat 8 c.repeats, BitVec.ofNat 8 c.attempts, refChar c.stepPool] ++
      tickChars c.stepDeadline ++ tickChars c.nextRepeat ++ tickChars c.arrivalDeadline ++ enc3 c.raiseTick.toNat ++
      tickChars c.acceptTick ++ tickChars c.onSceneTick ++ tickChars c.closeTick ++
      acceptChars c.raiseTick c.acceptTick ++ arriveChars c.acceptTick c.onSceneTick ++
      [refChar c.accepting, refChar c.heldBeacon, BitVec.ofNat 8 c.presses,
        BitVec.ofNat 8 (bitValue c.stepDeadline.isSome 0 + bitValue c.nextRepeat.isSome 1 +
          bitValue c.arrivalDeadline.isSome 2 + bitValue c.acceptTick.isSome 3 + bitValue c.onSceneTick.isSome 4 +
          bitValue c.closeTick.isSome 5)] ++
      (BitVec.ofNat 8 c.targets.length :: c.targets.map (BitVec.ofNat 8)) ++
      (BitVec.ofNat 8 c.declined.length :: c.declined.map (BitVec.ofNat 8)) ++
      (BitVec.ofNat 8 c.paged.length :: c.paged.map (BitVec.ofNat 8)) ++
      (BitVec.ofNat 8 c.text.length :: c.text) := by
  unfold callNotice
  rw [encResponse_accept, encResponse_arrive]
  simp only [encOptTick_eq, encRef_eq, encList1_eq, bits_three, bits_six, encSource_eq, encText, encTick, enc1,
    List.append_assoc]
  simp only [List.cons_append, List.nil_append]

theorem dutyCode_eq (d : Duty) : (BitVec.ofNat 8 d.code : Byte) = if d = .onDuty then 1#8 else 0#8 := by
  cases d <;> rfl

theorem stateCode_eq (c : Crew) : (BitVec.ofNat 8 c.stateCode : Byte) =
    if c.accepted ≠ [] then 2#8 else if c.duty = .onDuty then 1#8 else 0#8 := by
  unfold Crew.stateCode
  split
  · rfl
  · cases c.duty <;> rfl

theorem crewNotice_eq (n : Nat) (c : Crew) : crewNotice n c =
    [BitVec.ofNat 8 n, if c.defined then 1#8 else 0#8, if c.duty = .onDuty then 1#8 else 0#8,
      if c.accepted ≠ [] then 2#8 else if c.duty = .onDuty then 1#8 else 0#8, BitVec.ofNat 8 c.home] ++
      (BitVec.ofNat 8 c.name.length :: c.name) ++ (BitVec.ofNat 8 c.members.length :: c.members.flatMap enc2) ++
      (BitVec.ofNat 8 c.accepted.length :: c.accepted.flatMap enc2) := by
  simp only [crewNotice, encBool_eq, encText, encList2_eq, enc1, dutyCode_eq, stateCode_eq, List.append_assoc,
    List.cons_append, List.nil_append]

theorem stationNotice_eq (n : Nat) (x : Station) : stationNotice n x =
    [BitVec.ofNat 8 n, if x.defined then 1#8 else 0#8, BitVec.ofNat 8 x.group, BitVec.ofNat 8 x.setting.code,
      BitVec.ofNat 8 x.service.code, BitVec.ofNat 8 x.misses, x.mark, if x.resync then 1#8 else 0#8,
      if x.due.isSome then 1#8 else 0#8] ++ tickChars x.due ++
      (BitVec.ofNat 8 x.neighbours.length :: x.neighbours.map (BitVec.ofNat 8)) := by
  simp only [stationNotice, encBool_eq, encOptTick_eq, encList1_eq, enc1, List.cons_append, List.nil_append]

/-- The characters of the class of a manual hold. -/
def holdChar (x : Option Cls) : Byte := match x with | none => 0#8 | some k => BitVec.ofNat 8 k.rank

/-- The characters of the drive of a beacon. -/
def drivingChars (now : Tick) (x : Option Driving) : List Byte := match x with
  | none => [0#8, 0#8, 0#8, 0#8, 0#8]
  | some d => [1#8, BitVec.ofNat 8 d.cls.rank, BitVec.ofNat 8 d.period, BitVec.ofNat 8 d.onTime,
      BitVec.ofNat 8 (now - d.start).toNat]

theorem beaconBlock_eq (now : Tick) (b : Beacon) : beaconBlock now b =
    [if b.idle = .low then 0#8 else 1#8, if b.hold.isSome then 1#8 else 0#8, holdChar b.hold] ++
      (BitVec.ofNat 8 b.holders.length :: b.holders.flatMap enc2) ++ drivingChars now b.driving ++ [b.output.char] := by
  have idle : enc1 b.idle.code = [if b.idle = .low then 0#8 else 1#8] := by cases b.idle <;> rfl
  have hold : enc1 ((b.hold.map Cls.rank).getD 0) = [holdChar b.hold] := by cases b.hold <;> rfl
  unfold beaconBlock
  rw [idle, hold, encBool_eq, encList2_eq]
  cases b.driving <;> simp [drivingChars, encBool_eq, enc1, Driving.position]

theorem itemSummary_eq (i : Item) : itemSummary i =
    enc2 i.pager ++ enc2 i.call ++
      [BitVec.ofNat 8 i.kind.code, BitVec.ofNat 8 i.cls.rank, BitVec.ofNat 8 i.attempt] := by
  simp only [itemSummary, enc1, List.append_assoc, List.cons_append, List.nil_append]

theorem burstItem_eq (i : Item) : burstItem i =
    enc2 i.pager ++ enc2 i.call ++ [BitVec.ofNat 8 i.kind.code, BitVec.ofNat 8 i.cls.rank, BitVec.ofNat 8 i.attempt,
      BitVec.ofNat 8 i.text.length] ++ i.text := by
  simp only [burstItem, enc1, List.append_assoc, List.cons_append, List.nil_append]

theorem paramsReply_eq (p : Params) : paramsReply p =
    [BitVec.ofNat 8 p.factor.routine, BitVec.ofNat 8 p.factor.urgent, BitVec.ofNat 8 p.factor.hazard,
      BitVec.ofNat 8 p.factor.emergency] ++ enc2 p.freshness ++ [BitVec.ofNat 8 p.dedupe] ++ enc2 p.silence ++
      [BitVec.ofNat 8 p.pollPeriod, BitVec.ofNat 8 p.airtimeLimit, BitVec.ofNat 8 p.stayLimit,
        BitVec.ofNat 8 p.missLimit, BitVec.ofNat 8 p.pattern.routine.period, BitVec.ofNat 8 p.pattern.routine.onTime,
        BitVec.ofNat 8 p.pattern.urgent.period, BitVec.ofNat 8 p.pattern.urgent.onTime,
        BitVec.ofNat 8 p.pattern.hazard.period, BitVec.ofNat 8 p.pattern.hazard.onTime,
        BitVec.ofNat 8 p.pattern.emergency.period, BitVec.ofNat 8 p.pattern.emergency.onTime,
        BitVec.ofNat 8 (p.rate / 65536), BitVec.ofNat 8 (p.rate / 256), BitVec.ofNat 8 p.rate] := by
  simp only [paramsReply, encPattern, enc1, enc3, List.append_assoc, List.cons_append, List.nil_append]

/-! ### The contents of the replies -/

/-- The character of the exchange on the line of a station (R151). -/
def lineChar (s : State) (st : Nat) : Byte :=
  match s.line.exchange with
  | none => 0#8
  | some x => if x.station = st then (if x.kind = .poll then 1#8 else 2#8) else 0#8

theorem stationReply_eq (s : State) (st : Nat) : s.stationReply st =
    stationNotice st (s.station st) ++ [if st ∈ s.line.followUps then 1#8 else 0#8, lineChar s st] ++
      enc3 s.clock.toNat := by
  have follow : encBool (s.line.followUps.contains st) = [if st ∈ s.line.followUps then 1#8 else 0#8] := by
    rw [encBool_eq]
    by_cases h : st ∈ s.line.followUps <;> simp [h]
  have line : enc1 (s.lineCode st) = [lineChar s st] := by
    unfold State.lineCode lineChar
    cases s.line.exchange with
    | none => rfl
    | some x =>
      by_cases h : x.station = st
      · cases hk : x.kind <;> simp [h, hk, enc1]
      · simp [h, enc1]
  unfold State.stationReply
  rw [follow, line]
  simp only [List.append_assoc, List.cons_append, List.nil_append, encTick]

/-- The characters of a burst in flight (R113). -/
def flightChars (x : Option Burst) : List Byte := match x with
  | none => [0#8, 0#8, 0#8]
  | some b => [1#8, b.id, BitVec.ofNat 8 b.items.length] ++ b.items.flatMap itemSummary

theorem encFlight_eq (x : Option Burst) : encFlight x = flightChars x := by cases x <;> rfl

theorem queueReply_defined {s : State} {st : Nat} (h : (s.station st).defined = true) : s.queueReply st =
    [BitVec.ofNat 8 (s.queue st).count, BitVec.ofNat 8 (s.station st).group, BitVec.ofNat 8 (s.queue st).phase.code,
        if (s.queue st).waitIdle then 1#8 else 0#8, BitVec.ofNat 8 (s.queue st).waiting.length] ++
      (s.queue st).returned.flatMap (fun i => itemSummary i ++ [1#8]) ++
      (s.queue st).ordered.flatMap (fun i => itemSummary i ++ [0#8]) ++ flightChars (s.queue st).flight ++
      [BitVec.ofNat 8 ((s.group (s.station st).group).holder.getD 0),
        BitVec.ofNat 8 (s.group (s.station st).group).last,
        BitVec.ofNat 8 (s.group (s.station st).group).consecutive] := by
  refine (if_pos h).trans ?_
  simp only [encBool_eq, encFlight_eq, encWaiting, encRef, enc1, List.append_assoc, List.cons_append, List.nil_append]

theorem queueReply_undefined {s : State} {st : Nat} (h : (s.station st).defined = false) : s.queueReply st =
    [0#8, 0#8, 0#8, 0#8, 0#8, 0#8, 0#8, 0#8, 0#8, 0#8, 0#8] := by
  refine (if_neg (by simp [h])).trans ?_
  rfl

/-! ### The queries -/

/-- Settles O39: the layouts piece by piece, and each query as the reply it forms. -/
theorem queriesReport : Obligations.QueriesReport := by
  refine ⟨⟨callNotice_eq, crewNotice_eq, stationNotice_eq, fun s => ?_, beaconBlock_eq, itemSummary_eq, burstItem_eq,
    paramsReply_eq, by decide⟩, fun s tag hi lo h => ?_, fun s tag n h => ?_⟩
  · unfold State.partNotice
    cases s.store.loadResult with
    | none => rfl
    | some r => cases r <;> rfl
  · have two : [hi, lo].length ≤ 250 := Nat.le_add_left 2 248
    have none' : ([] : List Byte).length ≤ 250 := Nat.zero_le _
    refine ⟨fun hn => ?_, fun hn hc => ?_, fun c hn hc => ?_, fun cs hcs => ?_, ?_⟩
    · exact exec_queryCall h tag _ two (if_pos hn)
    · refine exec_queryCall h tag _ two (a := s.heard.refuse .noSuchCall) ((if_neg hn).trans ?_)
      rw [State.heard_findCall, show s.findCall (dec2 hi lo) = none from hc]
    · refine exec_queryCall h tag _ two (a := s.heard.answer (callNotice c)) ((if_neg hn).trans ?_)
      rw [State.heard_findCall, show s.findCall (dec2 hi lo) = some c from hc]
    · subst hcs
      exact exec_listCalls h tag _ none' rfl
    · exact exec_listAcks h tag _ none' rfl
  · have one : [n].length ≤ 250 := Nat.le_add_left 1 249
    have none' : ([] : List Byte).length ≤ 250 := Nat.zero_le _
    have range : ∀ {x y : Answer}, 1 ≤ n.toNat → n.toNat ≤ 12 → (if within 1 12 n.toNat then x else y) = x :=
      fun h1 h2 => if_pos ((within_iff _ _ _).mpr ⟨h1, h2⟩)
    refine ⟨fun bad => ⟨?_, ?_⟩, fun h1 h2 => ?_, fun h1 h2 hd => ?_, fun h1 h2 hd => ?_, ?_, ?_⟩
    · exact exec_queryQueue h tag _ one (if_neg (by rwa [within_iff]))
    · exact exec_queryStation h tag _ one (if_neg (by rwa [within_iff]))
    · refine (exec_queryStation h tag _ one (range h1 h2)).trans (congrArg Host.Outcome.next ?_)
      rw [sends_answer, stationReply_eq]
      rfl
    · refine (exec_queryQueue h tag _ one (range h1 h2)).trans (congrArg Host.Outcome.next ?_)
      rw [sends_answer, queueReply_defined (s := s.heard) hd]
      rfl
    · refine (exec_queryQueue h tag _ one (range h1 h2)).trans (congrArg Host.Outcome.next ?_)
      rw [sends_answer, queueReply_undefined (s := s.heard) hd]
    · exact exec_queryBeacons h tag _ none' rfl
    · exact exec_queryPart h tag _ none' rfl

end Sys2Proof.Machine
end

section
/-!
SUPPORT. What an advance and a step start make of a call, exactly (R51 to R55, R63 to R65): the empty steps passed over,
the step that is started with its pages, or the exhaustion.
-/

namespace Sys2Proof.Machine

/-! ### Pages -/

theorem arbitrate_registry (s : State) (g : Nat) : (s.arbitrate g).registry = s.registry := by
  unfold State.arbitrate
  dsimp only
  split
  · rfl
  · split
    · rfl
    · split
      · rfl
      · split <;> rfl

theorem setForceWide_registry (s : State) (n : Nat) : (s.setForceWide n).registry = s.registry := by
  unfold State.setForceWide
  split
  · rfl
  · split
    · rfl
    · exact State.changeCall_registry _ _ _

theorem loseItem_registry (s : State) (o : Option Item) : (s.loseItem o).registry = s.registry := by
  cases o with
  | none => rfl
  | some i =>
    unfold State.loseItem
    dsimp only
    split
    · exact setForceWide_registry _ _
    · rfl

theorem place_registry (i : Item) (st : Nat) (s : State) : (State.place i st s).registry = s.registry := by
  unfold State.place
  rw [arbitrate_registry, loseItem_registry]
  rfl

theorem forEach_registry {α : Type} (xs : List α) (f : α → State → State)
    (h : ∀ x s, (f x s).registry = s.registry) (s : State) : (forEach xs f s).registry = s.registry := by
  induction xs generalizing s with
  | nil => rfl
  | cons x xs ih => exact (ih (f x s)).trans (h x s)

theorem produce_registry (i : Item) (s : State) : (State.produce i s).registry = s.registry := by
  unfold State.produce
  split
  · split
    · exact setForceWide_registry _ _
    · rfl
  · exact forEach_registry _ _ (fun st s => place_registry i st s) s

theorem sendToCrews_registry (s : State) (mk : Nat → Item) (crews : List Nat) :
    (s.sendToCrews mk crews).registry = s.registry :=
  forEach_registry _ _ (fun p s => produce_registry (mk p) s) s

/-- Items for crews are handed over one by one: crews in order, members in order (R55). -/
theorem sendToCrews_eq (s : State) (mk : Nat → Item) (crews : List Nat) :
    s.sendToCrews mk crews =
      forEach (crews.flatMap fun k => (s.crew k).members.map mk) State.produce s := by
  unfold State.sendToCrews forEach
  rw [← List.map_flatMap, List.foldl_map]

/-! ### A call in its surroundings -/

/-- A change of a call may post it, and changes nothing else of the link. -/
theorem changeCall_link (s : State) (n : Nat) (f : Call → Call) :
    (s.changeCall n f).link = { s.link with notices := (s.changeCall n f).link.notices } := by
  unfold State.changeCall
  split
  · rfl
  · rw [State.post_link, State.putCall_link]

/-- In state `t` number `n` names record `c`, and the blocks that escalation looks at stand as in `s`. -/
structure State.At (s t : State) (n : Nat) (c : Call) : Prop where
  found : t.findCall n = some c
  registry : t.registry = s.registry
  clock : t.clock = s.clock
  ladders : t.ladders = s.ladders
  store : t.store = s.store
  sched : t.sched = s.sched
  line : t.line = s.line
  state : t.link.state = s.link.state

theorem State.At.refl {s : State} {n : Nat} {c : Call} (h : s.findCall n = some c) : s.At s n c :=
  ⟨h, rfl, rfl, rfl, rfl, rfl, rfl, rfl⟩

/-- A change of the call leaves its surroundings. -/
theorem State.At.change {s t : State} {n : Nat} {c : Call} (h : s.At t n c) (f : Call → Call)
    (hf : ∀ c, (f c).number = c.number) : s.At (t.changeCall n f) n (f c) where
  found := by rw [State.changeCall_findCall t n n f hf, h.found]; simp
  registry := (State.changeCall_registry _ _ _).trans h.registry
  clock := (State.changeCall_clock _ _ _).trans h.clock
  ladders := (State.changeCall_ladders _ _ _).trans h.ladders
  store := (State.changeCall_store _ _ _).trans h.store
  sched := (State.changeCall_sched _ _ _).trans h.sched
  line := (State.changeCall_line _ _ _).trans h.line
  state := (congrArg Link.state (changeCall_link _ _ _)).trans h.state

theorem State.At.number {s t : State} {n : Nat} {c : Call} (h : s.At t n c) : c.number = n :=
  State.findCall_number h.found

theorem State.At.ladder {s t : State} {n : Nat} {c : Call} (h : s.At t n c) (l : Nat) : t.ladder l = s.ladder l := by
  unfold State.ladder; rw [h.ladders]

theorem State.At.factor {s t : State} {n : Nat} {c : Call} (h : s.At t n c) (k : Cls) : t.factor k = s.factor k := by
  unfold State.factor; rw [h.store]

theorem Call.eq_of_core {x c : Call} (h : x.core = c.core) : x = { c with forceWide := x.forceWide } :=
  calc x = { x.core with forceWide := x.forceWide } := rfl
    _ = { c.core with forceWide := x.forceWide } := by rw [h]
    _ = { c with forceWide := x.forceWide } := rfl

/-! ### The step that is started -/

/-- The record of a call whose step is complete (R55). -/
def Call.completed (ts : List Nat) (b : Option Nat) (wide : Bool) (c : Call) : Call :=
  { c with
    targets := ts
    paged := ts.foldl addToSet c.paged
    heldBeacon := match b with | none => c.heldBeacon | some z => some z
    forceWide := wide }

/-- A step that completes gives the call its targets and its beacon, and hands its pages over (R55). -/
theorem completeStep_spec {v t : State} {n : Nat} {d : Call} (h : v.At t n d) (narrow : d.forceWide = false)
    (ts : List Nat) (b : Option Nat) :
    ∃ wide, (t.completeStep n ts b).findCall n = some (d.completed ts b wide) ∧
      (t.completeStep n ts b).registry = v.registry ∧
      v.HandsOver (t.completeStep n ts b) n false (v.pagesFor d ts) := by
  rw [completeStep_eq]
  have h1 := h.change (Call.targeted ts) fun _ => rfl
  generalize t.changeCall n (Call.targeted ts) = t1 at h1
  have hsend : t1.pageTargets n ts = forEach (v.pagesFor d ts) State.produce t1 := by
    unfold State.pageTargets
    rw [h1.found]
    dsimp only
    rw [sendToCrews_eq]
    have hcrew : ∀ k, t1.crew k = v.crew k := fun k => by unfold State.crew; rw [h1.registry]
    simp only [hcrew]
    rfl
  have hreg : (t1.pageTargets n ts).registry = v.registry := by
    rw [hsend, forEach_registry _ _ produce_registry, h1.registry]
  have he : Engine noCall t1 (t1.pageTargets n ts) := by
    rw [hsend]
    exact Engine.forEach _ _ (fun i _ s => engine_produce i s) _
  obtain ⟨x, hx, hcore⟩ := he.frame.found id h1.found
  have hover : ∀ u : State, u.sched = (t1.pageTargets n ts).sched → u.line = (t1.pageTargets n ts).line →
      v.HandsOver u n false (v.pagesFor d ts) := fun u hs hl =>
    ⟨t1, h1.sched, h1.line, by rw [h1.registry], h1.clock, h1.store, by rw [h1.found]; exact congrArg some narrow,
      by rw [hs, hsend], by rw [hl, hsend]⟩
  refine ⟨x.forceWide, ?_⟩
  cases b with
  | none => exact ⟨hx.trans (congrArg some (Call.eq_of_core hcore)), hreg, hover _ rfl rfl⟩
  | some z =>
    refine ⟨?_, (State.changeCall_registry _ _ _).trans hreg, hover _ (State.changeCall_sched _ _ _)
      (State.changeCall_line _ _ _)⟩
    show (State.changeCall _ n (Call.holding z)).findCall n = _
    rw [State.changeCall_findCall _ n n (Call.holding z) fun _ => rfl, hx, Call.eq_of_core hcore]
    simp [Call.completed, Call.holding, Call.targeted]

/-! ### The records that step starts write -/

/-- The fields of a record that an advance or a step start may write before a step is complete. -/
structure Call.Course where
  state : CallState
  stepIndex : Nat
  restarts : Nat
  directed : Bool
  referred : Bool
  forceWide : Bool
  stepPool : Option Nat
  stepStart : Tick
  window : Nat
  interval : Nat
  repeats : Nat
  attempts : Nat
  stepDeadline : Option Tick
  nextRepeat : Option Tick
  targets : List Nat
  declined : List Nat

/-- Record `c` with these fields written. -/
def Call.onCourse (c : Call) (v : Call.Course) : Call :=
  { c with
    state := v.state, stepIndex := v.stepIndex, restarts := v.restarts, directed := v.directed
    referred := v.referred, forceWide := v.forceWide, stepPool := v.stepPool, stepStart := v.stepStart
    window := v.window, interval := v.interval, repeats := v.repeats, attempts := v.attempts
    stepDeadline := v.stepDeadline, nextRepeat := v.nextRepeat, targets := v.targets, declined := v.declined }

/-- What record `c` holds in those fields. -/
def Call.course (c : Call) : Call.Course :=
  ⟨c.state, c.stepIndex, c.restarts, c.directed, c.referred, c.forceWide, c.stepPool, c.stepStart, c.window,
    c.interval, c.repeats, c.attempts, c.stepDeadline, c.nextRepeat, c.targets, c.declined⟩

/-! ### The way of an advance through the ladder -/

/-- After `r` restarts the call looks at step `i` next, every step that it passed over being empty (R54, R64). -/
def State.Trail (s : State) (lad : Ladder) (c : Call) (r i : Nat) : Prop :=
  r = c.restarts ∧ c.stepIndex < i ∧ s.emptySteps lad (c.stepIndex + 1) i ∨
    c.restarts < r ∧ r ≤ lad.restartLimit ∧ s.emptySteps lad (c.stepIndex + 1) (lad.steps.length + 1) ∧
      s.emptySteps lad 1 i ∧ (r = c.restarts + 1 ∨ s.emptySteps lad 1 (lad.steps.length + 1))

theorem emptySteps_nil (s : State) (lad : Ladder) (i : Nat) : s.emptySteps lad i i :=
  fun _ _ h1 h2 _ => absurd h1 (Nat.not_le.mpr h2)

theorem emptySteps_succ {s : State} {lad : Ladder} {i j : Nat} (h : s.emptySteps lad i j)
    (hj : ∀ x, lad.steps[j - 1]? = some x → s.emptyStep x.kind) : s.emptySteps lad i (j + 1) := fun m x h1 h2 hx => by
  rcases Nat.lt_succ_iff_lt_or_eq.mp h2 with hm | rfl
  · exact h m x h1 hm hx
  · exact hj x hx

/-- No step stands beyond the last. -/
theorem emptySteps_beyond {s : State} {lad : Ladder} {i j k : Nat} (h : s.emptySteps lad i j)
    (hj : lad.steps.length < j) : s.emptySteps lad i k := fun m x h1 _ hx => by
  have := (List.getElem?_eq_some_iff.mp hx).1
  rcases Nat.lt_or_ge m j with hm | hm
  · exact h m x h1 hm hx
  · omega

namespace State.Trail
variable {s : State} {lad : Ladder} {c : Call} {r i : Nat}

theorem start (s : State) (lad : Ladder) (c : Call) : s.Trail lad c c.restarts (c.stepIndex + 1) :=
  .inl ⟨rfl, Nat.lt_succ_self _, emptySteps_nil _ _ _⟩

/-- An empty step is passed over (R54). -/
theorem next (h : s.Trail lad c r i) (he : ∀ x, lad.steps[i - 1]? = some x → s.emptyStep x.kind) :
    s.Trail lad c r (i + 1) := by
  rcases h with ⟨h1, h2, h3⟩ | ⟨h1, h2, h3, h4, h5⟩
  · exact .inl ⟨h1, h2.trans (Nat.lt_succ_self i), emptySteps_succ h3 he⟩
  · exact .inr ⟨h1, h2, h3, emptySteps_succ h4 he, h5⟩

/-- Past the last step the ladder restarts (R64). -/
theorem restart (h : s.Trail lad c r i) (hi : lad.steps.length < i) (hr : r < lad.restartLimit) :
    s.Trail lad c (r + 1) 1 := by
  rcases h with ⟨rfl, h2, h3⟩ | ⟨h1, h2, h3, h4, -⟩
  · exact .inr ⟨Nat.lt_succ_self _, hr, emptySteps_beyond h3 hi, emptySteps_nil _ _ _, .inl rfl⟩
  · exact .inr ⟨h1.trans (Nat.lt_succ_self _), hr, h3, emptySteps_nil _ _ _, .inr (emptySteps_beyond h4 hi)⟩

/-- The step looked at is reached as R63 and R64 say, when it is not empty. -/
theorem arrives (h : s.Trail lad c r i) (h1 : 1 ≤ i) {x : LadderStep} (hx : lad.steps[i - 1]? = some x)
    (hne : ¬ s.emptyStep x.kind) :
    r = c.restarts ∧ c.stepIndex < i ∧ s.emptySteps lad (c.stepIndex + 1) i ∨
      r = c.restarts + 1 ∧ r ≤ lad.restartLimit ∧ s.emptySteps lad (c.stepIndex + 1) (lad.steps.length + 1) ∧
        s.emptySteps lad 1 i := by
  rcases h with h | ⟨-, h2, h3, h4, h5 | h5⟩
  · exact .inl h
  · exact .inr ⟨h5, h2, h3, h4⟩
  · have hl := (List.getElem?_eq_some_iff.mp hx).1
    exact absurd (h5 i x h1 (by omega) hx) hne

/-- Past the last step with every restart used, every step left was empty (R65). -/
theorem ends (h : s.Trail lad c r i) (hi : lad.steps.length < i) (hr : lad.restartLimit ≤ r) :
    s.emptySteps lad (c.stepIndex + 1) (lad.steps.length + 1) ∧
      (c.restarts < lad.restartLimit → s.emptySteps lad 1 (lad.steps.length + 1)) ∧
      max c.restarts lad.restartLimit = r := by
  rcases h with ⟨rfl, h2, h3⟩ | ⟨h1, h2, h3, h4, -⟩
  · exact ⟨emptySteps_beyond h3 hi, fun h => absurd h (Nat.not_lt.mpr hr), Nat.max_eq_left hr⟩
  · exact ⟨h3, fun _ => emptySteps_beyond h4 hi, by omega⟩

/-- A step that is looked at is one the call had left. -/
theorem had_more (h : s.Trail lad c r i) (hi : i ≤ lad.steps.length) :
    c.stepIndex < lad.steps.length ∨ c.restarts < lad.restartLimit := by
  rcases h with ⟨-, h2, -⟩ | ⟨h1, h2, -⟩ <;> omega

end State.Trail

/-! ### Resolving a step -/

theorem crew_of_registry {s t : State} (h : t.registry = s.registry) (c : Nat) : t.crew c = s.crew c := by
  unfold State.crew
  rw [h]

theorem eligible_of_registry {s t : State} (h : t.registry = s.registry) (a b : List Nat) (c : Nat) :
    t.eligible a b c = s.eligible a b c := by
  unfold State.eligible
  rw [crew_of_registry h]

theorem pool_of_registry {s t : State} (h : t.registry = s.registry) (p : Nat) : t.pool p = s.pool p := by
  unfold State.pool
  rw [h]

theorem State.At.putPool {s t : State} {n : Nat} {c : Call} (h : s.At t n c) (p : Nat) (x : Pool) :
    (s.putPool p x).At (t.putPool p x) n c where
  found := h.found
  registry := by
    show { t.registry with pools := setRow t.registry.pools p x } = { s.registry with pools := setRow s.registry.pools p x }
    rw [h.registry]
  clock := h.clock
  ladders := h.ladders
  store := h.store
  sched := h.sched
  line := h.line
  state := h.state

/-- A choice from a pool is made alike where the surroundings are. -/
theorem State.At.chooseOne {s t : State} {n : Nat} {c : Call} (h : s.At t n c) (p : Nat) (a b : List Nat) :
    (t.chooseOne p a b).1 = (s.chooseOne p a b).1 ∧ (s.chooseOne p a b).2.At (t.chooseOne p a b).2 n c := by
  have he : ∀ k, t.eligible a b k = s.eligible a b k := eligible_of_registry h.registry a b
  unfold State.chooseOne
  simp only [pool_of_registry h.registry, he]
  split
  · exact ⟨rfl, h⟩
  · exact ⟨rfl, h.putPool _ _⟩

theorem resolveCrew_of_registry {s t : State} (h : t.registry = s.registry) (c : Nat) :
    t.resolveCrew c = s.resolveCrew c := by
  unfold State.resolveCrew
  rw [crew_of_registry h]

/-- A step resolves alike where the surroundings are. -/
theorem State.At.resolveStep {s t : State} {n : Nat} {c : Call} (h : s.At t n c) (k : StepKind) :
    (t.resolveStep k).1 = (s.resolveStep k).1 ∧ (s.resolveStep k).2.At (t.resolveStep k).2 n c := by
  cases k with
  | crew x => exact ⟨resolveCrew_of_registry h.registry x, h⟩
  | poolOne p =>
    obtain ⟨h1, h2⟩ := h.chooseOne p [] []
    refine ⟨?_, h2⟩
    show Resolved.mk _ _ _ _ = Resolved.mk _ _ _ _
    rw [h1]
  | poolAll p =>
    have he : t.chooseAll p [] [] = s.chooseAll p [] [] := by
      unfold State.chooseAll
      rw [pool_of_registry h.registry]
      exact List.filter_congr fun x _ => eligible_of_registry h.registry [] [] x
    refine ⟨?_, h⟩
    show Resolved.mk _ _ _ _ = Resolved.mk _ _ _ _
    rw [he]
  | refer =>
    refine ⟨?_, h⟩
    show Resolved.mk _ _ _ _ = Resolved.mk _ _ _ _
    rw [h.state]
  | noTarget => exact ⟨rfl, h⟩

/-- A resolution moves at most the pointer of a pool (R37). -/
theorem resolveStep_state (s : State) (k : StepKind) :
    (s.resolveStep k).2 = s ∨ ∃ p x, (s.resolveStep k).2 = s.putPool p x := by
  cases k with
  | poolOne p =>
    show (s.chooseOne p [] []).2 = s ∨ ∃ q x, (s.chooseOne p [] []).2 = s.putPool q x
    unfold State.chooseOne
    split
    · exact .inl rfl
    · exact .inr ⟨_, _, rfl⟩
  | _ => exact .inl rfl

/-- What is handed over in surroundings that differ in a pool's pointer is handed over in these. -/
theorem handsOver_of_resolveStep {s t : State} {k : StepKind} {n : Nat} {wide : Bool} {items : List Item}
    (h : (s.resolveStep k).2.HandsOver t n wide items) : s.HandsOver t n wide items := by
  rcases resolveStep_state s k with e | ⟨p, x, e⟩
  · rwa [e] at h
  · rw [e] at h
    exact h

theorem pagesFor_of_resolveStep (s : State) (k : StepKind) (c : Call) (ts : List Nat) :
    (s.resolveStep k).2.pagesFor c ts = s.pagesFor c ts := by
  rcases resolveStep_state s k with e | ⟨p, x, e⟩ <;> rw [e]
  rfl

/-- A step that is not empty resolves as R52 says. -/
theorem resolves_of_resolveStep {s t : State} {k : StepKind} (hne : ¬ s.emptyStep k) {c' : Call}
    (hd : c'.directed = false) (ht : c'.targets = (s.resolveStep k).1.targets)
    (hp : c'.stepPool = (s.resolveStep k).1.pool) (hr : c'.referred = (s.resolveStep k).1.referred)
    (hreg : t.registry = (s.resolveStep k).2.registry) : s.Resolves t k c' := by
  refine ⟨hd, ?_⟩
  cases k with
  | crew x =>
    have hx : s.resolveCrew x = ⟨[x], none, false, false⟩ := if_pos (not_not.mp hne)
    exact ⟨ht.trans (congrArg Resolved.targets hx), hp.trans (congrArg Resolved.pool hx),
      hr.trans (congrArg Resolved.referred hx), hreg⟩
  | poolOne p =>
    cases hc : s.chooseOne p [] [] with
    | mk o v =>
      cases o with
      | none => exact absurd (congrArg Prod.fst hc) hne
      | some x =>
        refine ⟨x, v, hc, ?_, hp, hr, hreg.trans (congrArg (fun r => r.2.registry) hc)⟩
        exact ht.trans (congrArg (fun r => r.1.toList) hc)
  | poolAll p => exact ⟨ht, ht ▸ hne, hp, hr, hreg⟩
  | refer =>
    have ho : s.link.state = .online := not_not.mp hne
    exact ⟨ho, ht, hp, hr.trans (decide_eq_true ho), hreg⟩
  | noTarget => exact ⟨ht, hp, hr, hreg⟩

/-! ### Step starts -/

theorem windowTicks_eq (b f : Nat) : windowTicks b f = max 40 (min 14400 (b * f)) := by
  unfold windowTicks clamp
  split
  · omega
  · split <;> omega

/-- The record of a step that is not empty, its bookkeeping written and its step complete (R51, R55 to R57). -/
theorem stepBegun_completed (now : Tick) (f i b r : Nat) (c : Call) (v : Call.Course) (hs : v.state = .paging)
    (x : Resolved) (beacon : Option Nat) (wide : Bool) :
    Call.StepBegun now f b r i c
      ((Call.resolved x (stepBookkeeping now f i b r (c.onCourse v))).completed x.targets beacon wide) where
  same := ⟨rfl, rfl, rfl, rfl, rfl, rfl, rfl, rfl⟩
  state := hs
  reason := rfl
  index := rfl
  start := rfl
  window := windowTicks_eq b f
  interval := rfl
  repeats := rfl
  deadline := rfl
  repeatTick := rfl
  attempts := rfl
  declined := rfl
  paged := rfl
  accepting := rfl
  arrival := rfl
  ticks := ⟨rfl, rfl, rfl⟩
  presses := rfl

/-- Call `n` came out of an advance or a step start as `State.AdvancesTo` says. -/
def State.Done (s : State) (n : Nat) (c : Call) (t : State) : Prop :=
  ∃ c', t.findCall n = some c' ∧ s.AdvancesTo t c c'

/-- What an empty step `i` leaves of a record (R54). -/
structure Call.Course.Passed (v : Call.Course) (r i : Nat) : Prop where
  index : v.stepIndex = i
  restarts : v.restarts = r
  targets : v.targets = []
  declined : v.declined = []
  pool : v.stepPool = none
  narrow : v.forceWide = false
  state : v.state = .paging

/-- The second half of a step start completes a step that is not empty, and advances from an empty one. -/
theorem startStep_spec {s t : State} {n i : Nat} {c : Call} {v : Call.Course} (adv : State → State)
    (h : s.At t n (c.onCourse v)) (hs : v.state = .paging) (h1 : 1 ≤ i)
    (h2 : i ≤ (s.ladder c.ladder).steps.length) (tr : s.Trail (s.ladder c.ladder) c v.restarts i)
    (hadv : ∀ t' v', s.At t' n (c.onCourse v') → v'.Passed v.restarts i →
      s.Trail (s.ladder c.ladder) c v.restarts (i + 1) → s.Done n c (adv t')) :
    s.Done n c (State.startStep adv n i none t) := by
  obtain ⟨x, hx⟩ : ∃ x, (s.ladder c.ladder).steps[i - 1]? = some x :=
    ⟨_, List.getElem?_eq_getElem (by omega)⟩
  have hget : (t.ladder (c.onCourse v).ladder).steps.getD (i - 1) .default = x := by
    rw [h.ladder, List.getD_eq_getElem?_getD]
    show ((s.ladder c.ladder).steps[i - 1]?).getD _ = x
    rw [hx]
    rfl
  have hnum : c.number = n := h.number
  rw [startStep_eq adv n i none t _ x h.found hget, h.clock, h.factor]
  have hb := h.change (stepBookkeeping s.clock (s.factor (c.onCourse v).cls) i x.window x.repeats) fun _ => rfl
  generalize t.changeCall n _ = t1 at hb
  obtain ⟨e1, hr⟩ := hb.resolveStep x.kind
  have hr := hr.change (Call.resolved (s.resolveStep x.kind).1) fun _ => rfl
  show s.Done n c (State.enterStep adv n x.beacon (t1.resolveStep x.kind))
  unfold State.enterStep
  rw [e1]
  by_cases hne : s.emptyStep x.kind
  · rw [if_pos ((resolveStep_empty s x.kind).mpr hne)]
    rw [resolveStep_of_empty hne] at hr
    refine hadv _ (Call.resolved (s.resolveStep x.kind).1
        (stepBookkeeping s.clock (s.factor c.cls) i x.window x.repeats (c.onCourse v))).course hr
      ⟨rfl, rfl, rfl, rfl, ?_, rfl, hs⟩ (tr.next fun y hy => ?_)
    · exact if_pos ((resolveStep_empty s x.kind).mpr hne)
    · exact Option.some.inj (hx.symm.trans hy) ▸ hne
  · have hempty : (s.resolveStep x.kind).1.empty = false := by
      rw [← Bool.not_eq_true]
      exact mt (resolveStep_empty s x.kind).mp hne
    rw [hempty, if_neg Bool.false_ne_true]
    obtain ⟨wide, hfound, hreg, hover⟩ := completeStep_spec hr rfl (s.resolveStep x.kind).1.targets x.beacon
    refine ⟨_, hfound, .inl ⟨⟨i, x, h1, hx, hne, stepBegun_completed _ _ _ _ _ c v hs _ _ _, ?_, ?_, ?_⟩, ?_⟩⟩
    · refine resolves_of_resolveStep hne rfl rfl ?_ rfl hreg
      show (if (s.resolveStep x.kind).1.empty then none else (s.resolveStep x.kind).1.pool) = _
      rw [hempty]
      rfl
    · rfl
    · exact tr.arrives h1 hx hne
    · rw [hnum]
      have := handsOver_of_resolveStep hover
      rw [pagesFor_of_resolveStep] at this
      exact this

/-! ### The advance -/

/-- How an advance may find a call: as it stood at the start, or out of an empty step. -/
def Call.Course.Reached (v : Call.Course) (lad : Ladder) (c : Call) : Prop :=
  (c.onCourse v).exhaustedBy lad = c.exhaustedBy lad ∨
    v.Passed v.restarts v.stepIndex ∧ v.stepIndex ≤ lad.steps.length ∧
      (c.stepIndex < lad.steps.length ∨ c.restarts < lad.restartLimit)

/-- A call exhausted where the ladder ends, out of the step it was found in or of the last empty one (R65). -/
theorem givenUp_of_reached {lad : Ladder} {c : Call} {v : Call.Course} (h : v.Reached lad c)
    (hi : lad.steps.length ≤ v.stepIndex) (hr : max c.restarts lad.restartLimit = v.restarts) :
    Call.GivenUp lad c ((c.onCourse v).exhaustedBy lad) := by
  rcases h with h | ⟨p, hle, more⟩
  · have h1 : v.stepIndex = c.stepIndex := congrArg Call.stepIndex h
    have h2 : v.restarts = c.restarts := congrArg Call.restarts h
    exact ⟨fun _ _ => h, fun more => by omega⟩
  · refine ⟨fun h1 h2 => by omega, fun _ => ?_⟩
    rw [hr, ← Nat.le_antisymm hle hi]
    cases v
    obtain ⟨-, -, ht, hd, hp, hw, -⟩ := p
    dsimp only at ht hd hp hw
    subst ht hd hp hw
    rfl

/-- An advance starts the first step that is not empty, or exhausts the call, where its bound covers every step that is
left (R54, R63 to R65). -/
theorem advance_spec {s : State} {n : Nat} {c : Call} (some' : 1 ≤ (s.ladder c.ladder).steps.length) (fuel : Nat) :
    ∀ (t : State) (v : Call.Course), s.At t n (c.onCourse v) → v.Reached (s.ladder c.ladder) c →
      s.Trail (s.ladder c.ladder) c v.restarts (v.stepIndex + 1) →
      (s.ladder c.ladder).steps.length - v.stepIndex +
        ((s.ladder c.ladder).restartLimit - v.restarts) * (s.ladder c.ladder).steps.length < fuel →
      s.Done n c (State.advance fuel n t) := by
  induction fuel with
  | zero => exact fun _ _ _ _ _ h => absurd h (Nat.not_lt_zero _)
  | succ fuel ih =>
    intro t v h reach tr bound
    have again : ∀ (i : Nat) (r : Nat), i ≤ (s.ladder c.ladder).steps.length →
        s.Trail (s.ladder c.ladder) c r i →
        (s.ladder c.ladder).steps.length - i +
          ((s.ladder c.ladder).restartLimit - r) * (s.ladder c.ladder).steps.length < fuel →
        ∀ t' v', s.At t' n (c.onCourse v') → v'.Passed r i →
          s.Trail (s.ladder c.ladder) c r (i + 1) → s.Done n c (State.advance fuel n t') := by
      rintro i r hi tr0 hb t' v' h' p tr'
      obtain ⟨rfl, rfl⟩ : v'.stepIndex = i ∧ v'.restarts = r := ⟨p.index, p.restarts⟩
      exact ih t' v' h' (.inr ⟨p, hi, tr0.had_more hi⟩) tr' hb
    rw [advance_succ fuel n t _ h.found, h.ladder]
    have ha := h.change Call.advancing fun _ => rfl
    show s.Done n c (if v.stepIndex + 1 ≤ (s.ladder c.ladder).steps.length then _
      else if v.restarts < (s.ladder c.ladder).restartLimit then _ else _)
    split
    · next hi =>
      refine startStep_spec _ (v := (Call.advancing (c.onCourse v)).course) ha rfl (Nat.succ_pos _) hi tr
        (again _ _ hi tr ?_)
      show (s.ladder c.ladder).steps.length - (v.stepIndex + 1) +
        ((s.ladder c.ladder).restartLimit - v.restarts) * (s.ladder c.ladder).steps.length < fuel
      omega
    · next hi =>
      have hi : (s.ladder c.ladder).steps.length < v.stepIndex + 1 := Nat.lt_of_not_le hi
      split
      · next hr =>
        have hrest := tr.restart hi hr
        refine startStep_spec _ (v := (Call.restarted (Call.advancing (c.onCourse v))).course)
          (ha.change Call.restarted fun _ => rfl) rfl (Nat.le_refl 1) some' hrest (again _ _ some' hrest ?_)
        show _ + (_ - (v.restarts + 1)) * _ < fuel
        have hk : (s.ladder c.ladder).restartLimit - v.restarts =
            ((s.ladder c.ladder).restartLimit - (v.restarts + 1)) + 1 := by omega
        rw [hk, Nat.succ_mul] at bound
        omega
      · next hr =>
        obtain ⟨e1, e2, e3⟩ := tr.ends hi (Nat.le_of_not_lt hr)
        have he := ha.change (Call.exhaustedBy (s.ladder c.ladder)) fun _ => rfl
        exact ⟨_, he.found, .inr ⟨givenUp_of_reached reach (Nat.le_of_lt_succ hi) e3, e1, e2, he.registry, he.sched,
          he.line⟩⟩

/-- A ladder within its ranges has a step, and its longest chain of empty steps fits the bound (R45, R54). -/
theorem ladder_bounds {lad : Ladder} (h : lad.inRange = true) :
    1 ≤ lad.steps.length ∧ lad.steps.length ≤ 8 ∧ lad.restartLimit ≤ 3 := by
  simp only [Ladder.inRange, Bool.and_eq_true, within_iff] at h
  obtain ⟨⟨⟨⟨h1, -⟩, -⟩, h2⟩, -⟩ := h
  exact ⟨h1.1, h1.2, h2.2⟩

theorem chain_bound {lad : Ladder} (h : lad.inRange = true) (i r : Nat) :
    lad.steps.length - i + (lad.restartLimit - r) * lad.steps.length < Config.chainLimit := by
  obtain ⟨-, h8, h3⟩ := ladder_bounds h
  have : (lad.restartLimit - r) * lad.steps.length ≤ 3 * 8 := Nat.mul_le_mul (by omega) h8
  show _ < 33
  omega

/-- The advance of a call whose ladder is in range (R63). -/
theorem advanceCall_done {s t : State} {n : Nat} {c : Call} (hl : (s.ladder c.ladder).inRange = true)
    (h : s.At t n c) : s.Done n c (t.advanceCall n) :=
  advance_spec (ladder_bounds hl).1 _ t c.course h (.inl rfl) (State.Trail.start s _ c) (chain_bound hl _ _)

end Sys2Proof.Machine
end

section
/-!
SUPPORT. What raising a call makes of the state, exactly (R4, R8, R14, R53). It settles O21.
-/

namespace Sys2Proof.Machine

/-! ### Changes that concern one call alone -/

/-- A change that leaves the held beacon writes the record and its notice, and nothing else. -/
theorem changeCall_quiet (s : State) (n : Nat) (f : Call → Call) (hf : ∀ c, (f c).heldBeacon = c.heldBeacon) :
    s.changeCall n f = { s with
      book := { s.book with calls := (s.changeCall n f).book.calls }
      link := { s.link with notices := (s.changeCall n f).link.notices } } := by
  unfold State.changeCall
  cases hc : s.findCall n with
  | none => rfl
  | some c =>
    have hp : s.putCall c (f c) = s.setBook { s.book with calls := replaceCall (f c) s.book.calls } := by
      unfold State.putCall State.moveHolder
      rw [if_pos (hf c).symm]
    dsimp only
    rw [hp]
    unfold State.post
    split <;> rfl

/-- A change of call `n` leaves what other numbers name. -/
theorem changeCall_findCall_ne (s : State) {n m : Nat} (h : m ≠ n) (f : Call → Call)
    (hf : ∀ c, (f c).number = c.number) : (s.changeCall n f).findCall m = s.findCall m := by
  rw [State.changeCall_findCall s n m f hf]
  simp [h]

/-- What was posted stays posted while escalation acts. -/
theorem EngineFrame.posted {own : Nat → Prop} {s t : State} (h : EngineFrame own s t) {k : NoticeKey}
    (hk : k ∈ s.link.notices) : k ∈ t.link.notices := by
  obtain ⟨l, e⟩ := h.notices
  rw [e]
  exact List.mem_append_left _ hk

/-! ### Raising -/

theorem State.At.setPoint {s t : State} {n : Nat} {c : Call} (h : s.At t n c) (st i : Nat) (x : PointState) :
    s.At (t.setPoint st i x) n c :=
  ⟨h.found, h.registry, h.clock, h.ladders, h.store, h.sched, h.line, h.state⟩

/-- The record just added, in the surroundings it was added in. -/
theorem at_addCall {u : State} {c : Call} (fresh : ∀ x ∈ u.book.calls, x.number ≠ c.number) :
    u.At (u.addCall c) c.number c where
  found := (addCall_findCall fresh c.number).trans (if_pos rfl)
  registry := by rw [addCall_eq, State.post_registry]; rfl
  clock := by rw [addCall_eq, State.post_clock]; rfl
  ladders := by rw [addCall_eq, State.post_ladders]; rfl
  store := by rw [addCall_eq, State.post_store]; rfl
  sched := by rw [addCall_eq, State.post_sched]; rfl
  line := by rw [addCall_eq, State.post_line]; rfl
  state := by rw [addCall_eq, State.post_link]; rfl

/-- The first step start of a new call without a preferred crew (R53): as an advance from before step 1. -/
theorem startCall_done {s t : State} {n : Nat} {c : Call} (hl : (s.ladder c.ladder).inRange = true)
    (h : s.At t n c) (hp : c.state = .paging) : s.Done n { c with stepIndex := 0 } (t.startCall n none) := by
  obtain ⟨some', -, -⟩ := ladder_bounds hl
  have tr : s.Trail (s.ladder c.ladder) { c with stepIndex := 0 } c.restarts 1 :=
    State.Trail.start s _ { c with stepIndex := 0 }
  refine startStep_spec (State.advance Config.chainLimit n) (v := c.course) h hp (Nat.le_refl 1) some' tr
    fun t' v' h' p tr' => ?_
  obtain ⟨hi, hr⟩ : v'.stepIndex = 1 ∧ v'.restarts = c.restarts := ⟨p.index, p.restarts⟩
  refine advance_spec (c := { c with stepIndex := 0 }) some' _ t' v' h' (.inr ⟨?_, ?_, .inl some'⟩) ?_ (chain_bound hl _ _)
  · rw [hi, hr]; exact p
  · rw [hi]; exact some'
  · rw [hi, hr]; exact tr'

/-- What the book, the tables and the link are once a record was added. -/
structure State.Added (u t : State) (n : Nat) : Prop where
  book : t.book = { u.book with calls := t.book.calls, counter := n, points := t.book.points }
  posted : .call n ∈ t.link.notices
  others : ∀ m, m ≠ n → (t.findCall m).map Call.core = (u.findCall m).map Call.core
  link : t.link = { u.link with notices := t.link.notices }
  line : t.line = { u.line with burstWaits := t.line.burstWaits }
  clock : t.clock = u.clock
  ladders : t.ladders = u.ladders
  acks : t.acks = u.acks
  store : t.store = u.store
  crews : t.registry.crews = u.registry.crews
  directory : t.registry.directory = u.registry.directory

theorem added_addCall {u : State} {c : Call} (fresh : ∀ x ∈ u.book.calls, x.number ≠ c.number) :
    u.Added (u.addCall c) c.number where
  book := by rw [addCall_eq, State.post_book]; rfl
  posted := State.mem_post _ _
  others := fun m hm => by rw [addCall_findCall fresh, if_neg hm]
  link := by rw [addCall_eq, State.post_link]; rfl
  line := by rw [addCall_eq, State.post_line]; rfl
  clock := by rw [addCall_eq, State.post_clock]; rfl
  ladders := by rw [addCall_eq, State.post_ladders]; rfl
  acks := by rw [addCall_eq, State.post_acks]; rfl
  store := by rw [addCall_eq, State.post_store]; rfl
  crews := by rw [addCall_eq, State.post_registry]; rfl
  directory := by rw [addCall_eq, State.post_registry]; rfl

theorem State.Added.setPoint {u t : State} {n : Nat} (h : u.Added t n) (st i : Nat) (x : PointState) :
    u.Added (t.setPoint st i x) n where
  book := by
    have hb := h.book
    rw [State.setPoint, State.setBook_book, hb]
  posted := h.posted
  others := h.others
  link := h.link
  line := h.line
  clock := h.clock
  ladders := h.ladders
  acks := h.acks
  store := h.store
  crews := h.crews
  directory := h.directory

/-- Escalation of the new call leaves this as it is. -/
theorem State.Added.engine {u t w : State} {n : Nat} (h : u.Added t n) (e : Engine (onlyCall n) t w) : u.Added w n where
  book := by rw [e.frame.book, h.book]
  posted := e.frame.posted h.posted
  others := fun m hm => (e.frame.others m hm).trans (h.others m hm)
  link := by rw [e.frame.link, h.link]
  line := by rw [e.frame.line, h.line]
  clock := e.frame.clock.trans h.clock
  ladders := e.frame.ladders.trans h.ladders
  acks := e.frame.acks.trans h.acks
  store := e.frame.store.trans h.store
  crews := e.frame.crews.trans h.crews
  directory := e.frame.directory.trans h.directory

/-- A press raises the call of its entry in a book that holds at most 96 records (R14). -/
theorem raisesFrom {u : State} (room : u.book.calls.length ≤ 96) (hl : ∀ l, (u.ladder l).inRange = true)
    (p : CallPoint) : u.RaisesFrom (u.raiseFromPoint p) p := by
  have fresh : ∀ x ∈ u.book.calls, x.number ≠ (u.pressCall p).number := nextNumber_free room
  have e := engine_raiseFromPoint room p
  have h0 : u.Added ((u.addCall (u.pressCall p)).setPoint p.station p.input (.opened u.book.nextNumber))
      u.book.nextNumber :=
    (added_addCall fresh).setPoint _ _ _
  have h := h0.engine e
  have points : (u.raiseFromPoint p).book.points = u.book.points.map (fun q =>
      if q.station = p.station ∧ q.input = p.input then { q with state := .opened u.book.nextNumber } else q) := by
    rw [e.frame.book, State.setPoint, State.setBook_book]
    show List.map _ (u.addCall (u.pressCall p)).book.points = _
    rw [(State.addCall_points u (u.pressCall p)).1]
  refine ⟨?_, h.posted, ?_, h.others, ⟨h.clock, h.ladders, h.acks, h.store, h.crews, h.directory⟩, h.link⟩
  · exact startCall_done (c := u.pressCall p) (hl _) ((at_addCall fresh).setPoint _ _ _) rfl
  · rw [← points]
    exact h.book

/-! ### Presses -/

/-- A press at a PAGING call's entry is counted and advances the call (R15). -/
theorem press_advances {s : State} {n : Nat} {c : Call} (hc : s.findCall n = some c) (hp : c.state = .paging) :
    EngineFrame (fun m => m = n) s ((s.changeCall n Call.pressed).advanceCall n) ∧
      .call n ∈ ((s.changeCall n Call.pressed).advanceCall n).link.notices := by
  have e := engine_advanceCall _ n (pagingAt_pressed hc hp)
  have e0 : Engine (onlyCall n) s (s.changeCall n Call.pressed) := engine_changeOwn s n Call.pressed fun x hx => by
    obtain rfl := Option.some.inj (hc.symm.trans hx)
    exact ⟨by simp [hp], by simp [Call.pressed, hp], ⟨rfl, rfl, rfl, rfl, rfl, rfl, rfl, rfl⟩,
      fun _ h => pressed_sound h⟩
  exact ⟨Engine.frame (e0.trans e), e.frame.posted (State.changeCall_posts s n _ hc)⟩

theorem setPoint_findPoint (s : State) (st i : Nat) (x : PointState) (a b : Nat) :
    (s.setPoint st i x).findPoint a b =
      (s.findPoint a b).map fun p => if p.station = st ∧ p.input = i then { p with state := x } else p :=
  find?_map_key _ _ (setPoint_keeps_key st i x) a b

/-- Settles O21: a press by the state of its entry. -/
theorem pressesActByTheirEntry : Obligations.PressesActByTheirEntry := by
  intro s st inp
  refine ⟨fun hf => ?_, fun p hf hp => ?_, fun p hf hp full order => ?_, fun p hf hp hl => ?_,
    fun p n c hf hp hc ho => ?_⟩
  · unfold State.press
    rw [hf]
  all_goals obtain ⟨rfl, rfl⟩ := State.findPoint_key hf
  all_goals rw [press_eq s p hf, hp]
  · dsimp only
    rw [obtainSlot_full full order]
    refine ⟨?_, rfl, fun a b hab => ?_⟩
    · refine (setPoint_findPoint s _ _ _ _ _).trans ?_
      rw [hf]
      simp
    · refine (setPoint_findPoint s _ _ _ a b).trans ?_
      cases hq : s.findPoint a b with
      | none => rfl
      | some q =>
        obtain ⟨rfl, rfl⟩ := State.findPoint_key hq
        have : ¬ (q.station = p.station ∧ q.input = p.input) := fun e => hab (Prod.ext e.1 e.2)
        simp [this]
  · refine ⟨fun room => ?_, fun m rest full order => ?_⟩
    · have slot : s.obtainSlot = some s := if_pos room
      dsimp only
      rw [slot]
      exact raisesFrom (Nat.le_of_lt room) hl p
    · have slot : s.obtainSlot = some (s.without m) := by
        unfold State.obtainSlot
        rw [if_neg (by rw [full]; exact Nat.lt_irrefl 96), order]
        rfl
      dsimp only
      rw [slot]
      exact raisesFrom (u := s.without m) ((List.length_filter_le _ _).trans (Nat.le_of_eq full)) hl p
  · dsimp only
    rw [pressOpen_eq s n c hc]
    have hat := (State.At.refl hc).change Call.pressed fun _ => rfl
    by_cases hst : c.state = .paging
    · rw [if_pos hst]
      obtain ⟨frame, posted⟩ := press_advances hc hst
      obtain ⟨x, hx, -⟩ := frame.same n c hc
      refine ⟨x, hx, posted, fun h => absurd hst h, fun _ hl => ⟨?_, frame⟩⟩
      obtain ⟨c', hc', hd⟩ := advanceCall_done (c := Call.pressed c) hl hat
      obtain rfl := Option.some.inj (hc'.symm.trans hx)
      exact hd
    · rw [if_neg hst]
      exact ⟨_, hat.found, State.changeCall_posts s n _ hc, fun _ => ⟨rfl, changeCall_quiet s n _ fun _ => rfl,
        fun m hm => changeCall_findCall_ne s hm _ fun _ => rfl⟩, fun h => absurd h hst⟩

end Sys2Proof.Machine
end

section
/-!
SUPPORT. What the close of a call makes of the state, exactly (R17, R20, R21). It settles O19 and O37.
-/

namespace Sys2Proof.Machine

/-! ### Withdrawn pages stay withdrawn while notes go out -/

/-- No PAGE or REPAGE item of call `n` waits at any station (R112). -/
def State.NoPages (s : State) (n : Nat) : Prop :=
  ∀ st x, x ∈ (s.queue st).waiting → x.call = n → x.kind ≠ .page ∧ x.kind ≠ .repage

theorem noPages_withdrawPages (s : State) (n : Nat) : (s.withdrawPages n).NoPages n := by
  intro st x hx hn
  rw [State.withdrawPages_queue] at hx
  have keep : (!(x.asks && decide (x.call = n))) = true := by
    rcases List.mem_append.mp hx with h | h <;> exact (List.mem_filter.mp h).2
  simpa [Item.asks, hn] using keep

/-- An item that waits after a copy was placed is the copy, or waited before, by its key (R110, R111). -/
theorem accept_keys {q : StationQueue} {copy x : Item} (h : x ∈ (q.accept copy).1.waiting) :
    x.key = copy.key ∨ x.key ∈ q.waiting.map Item.key := by
  have insert : ∀ {r : StationQueue}, (∀ y ∈ r.waiting, y ∈ q.waiting) →
      x ∈ ({ r with ordered := insertByClass copy r.ordered } : StationQueue).waiting →
      x.key = copy.key ∨ x.key ∈ q.waiting.map Item.key := fun {r} hr hx => by
    rcases List.mem_append.mp hx with hx | hx
    · exact .inr (List.mem_map_of_mem (hr x (List.mem_append_left _ hx)))
    · rcases List.mem_cons.mp ((insertByClass_perm copy r.ordered).mem_iff.mp hx) with rfl | hx
      · exact .inl rfl
      · exact .inr (List.mem_map_of_mem (hr x (List.mem_append_right _ hx)))
  unfold StationQueue.accept at h
  split at h
  · refine .inr ?_
    have hk : (mergeInto copy q.returned ++ mergeInto copy q.ordered).map Item.key = q.waiting.map Item.key := by
      rw [List.map_append, mergeInto_keys, mergeInto_keys, ← List.map_append]
      rfl
    rw [← hk]
    exact List.mem_map_of_mem h
  · split at h
    · exact insert (fun _ h => h) h
    · split at h
      · exact .inr (List.mem_map_of_mem h)
      · split at h
        · refine insert (r := q.dropTail) (fun y hy => ?_) h
          rw [StationQueue.dropTail_waiting] at hy
          exact List.mem_of_mem_dropLast hy
        · exact .inr (List.mem_map_of_mem h)

theorem State.NoPages.accept {q : StationQueue} {copy : Item} {n : Nat} (hc : copy.asks = false)
    (h : ∀ x ∈ q.waiting, x.call = n → x.kind ≠ .page ∧ x.kind ≠ .repage) :
    ∀ x ∈ (q.accept copy).1.waiting, x.call = n → x.kind ≠ .page ∧ x.kind ≠ .repage := by
  intro x hx hn
  rcases accept_keys hx with hk | hk
  · have : x.kind = copy.kind := congrArg (fun k => k.2.2) hk
    rw [this]
    simpa [Item.asks] using hc
  · obtain ⟨y, hy, hk⟩ := List.mem_map.mp hk
    have h1 : y.call = x.call := congrArg (fun k => k.2.1) hk
    have h2 : y.kind = x.kind := congrArg (fun k => k.2.2) hk
    rw [← h2]
    exact h y hy (h1.trans hn)

/-- A queue whose phase alone changed holds what it held. -/
theorem putQueue_phase_waiting (s : State) (st : Nat) (p : Phase) (k : Nat) :
    ((s.putQueue st { s.queue st with phase := p }).queue k).waiting = (s.queue k).waiting := by
  rw [State.putQueue_queue_eq]
  split
  · next h => rw [h.1]; rfl
  · rfl

theorem giveGrant_waiting (s : State) (g st n k : Nat) :
    ((s.giveGrant g st n).queue k).waiting = (s.queue k).waiting :=
  putQueue_phase_waiting (s.putGroup g { s.group g with holder := some st, last := st, consecutive := n }) st .granted k

/-- The arbiter gives grants and moves no item (R116). -/
theorem arbitrate_waiting (s : State) (g k : Nat) : ((s.arbitrate g).queue k).waiting = (s.queue k).waiting := by
  unfold State.arbitrate
  dsimp only
  split
  · rfl
  · split
    · exact giveGrant_waiting _ _ _ _ _
    · split
      · exact giveGrant_waiting _ _ _ _ _
      · split
        · exact giveGrant_waiting _ _ _ _ _
        · rfl

theorem loseItem_queue (s : State) (o : Option Item) (k : Nat) : (s.loseItem o).queue k = s.queue k := by
  cases o with
  | none => rfl
  | some i =>
    unfold State.loseItem State.setForceWide
    dsimp only
    split
    · split
      · rfl
      · split
        · rfl
        · exact State.changeCall_queue _ _ _ _
    · rfl

theorem State.NoPages.place {s : State} {n : Nat} (h : s.NoPages n) {i : Item} (hi : i.asks = false) (st : Nat) :
    (State.place i st s).NoPages n := by
  intro k x hx hn
  unfold State.place at hx
  rw [arbitrate_waiting, loseItem_queue, State.putQueue_queue_eq] at hx
  split at hx
  · exact State.NoPages.accept hi (h st) x hx hn
  · exact h k x hx hn

theorem State.NoPages.forEach {α : Type} {n : Nat} (xs : List α) {f : α → State → State}
    (hf : ∀ x s, State.NoPages s n → (f x s).NoPages n) {s : State} (h : s.NoPages n) :
    (Machine.forEach xs f s).NoPages n := by
  induction xs generalizing s with
  | nil => exact h
  | cons x xs ih => exact ih (hf x s h)

theorem State.NoPages.produce {s : State} {n : Nat} (h : s.NoPages n) {i : Item} (hi : i.asks = false) :
    (State.produce i s).NoPages n := by
  unfold State.produce
  split
  · rw [hi]
    exact h
  · exact State.NoPages.forEach _ (fun st s hs => hs.place hi st) h

/-! ### The close of the record -/

theorem closeNotes_eq (s : State) (r : CloseReason) (c : Call) : s.closeNotes r c =
    (notedCrews r c).flatMap (fun k => (s.crew k).members.map (closeNote r c)) := by
  unfold State.closeNotes notedCrews Call.undeclined
  rw [List.filter_filter]
  simp only [Bool.and_comm]
  rfl

theorem sendCloseNotes_eq (s : State) (r : CloseReason) (c : Call) :
    s.sendCloseNotes r c = forEach (s.closeNotes r c) State.produce (s.withdrawPages c.number) := by
  rw [closeNotes_eq]
  exact sendToCrews_eq _ _ _

theorem sendCloseNotes_registry (s : State) (r : CloseReason) (c : Call) :
    (s.sendCloseNotes r c).registry = s.registry := sendToCrews_registry _ _ _

theorem sendCloseNotes_noPages (s : State) (r : CloseReason) (c : Call) : (s.sendCloseNotes r c).NoPages c.number := by
  unfold State.sendCloseNotes State.sendToCrews
  exact State.NoPages.forEach _ (fun _ s hs => hs.produce rfl) (noPages_withdrawPages s c.number)

/-- Which blocks a crew's list is not part of. -/
theorem leaveCrew?_rest (s : State) (n : Nat) (a : Option Nat) :
    (s.leaveCrew? n a).book = s.book ∧ (s.leaveCrew? n a).clock = s.clock ∧ (s.leaveCrew? n a).ladders = s.ladders ∧
      (s.leaveCrew? n a).acks = s.acks ∧ (s.leaveCrew? n a).store = s.store ∧ (s.leaveCrew? n a).sched = s.sched ∧
      (s.leaveCrew? n a).line = s.line ∧ (s.leaveCrew? n a).registry.directory = s.registry.directory ∧
      (s.leaveCrew? n a).registry.pools = s.registry.pools ∧
      (s.leaveCrew? n a).link = { s.link with notices := (s.leaveCrew? n a).link.notices } := by
  cases a with
  | none => exact ⟨rfl, rfl, rfl, rfl, rfl, rfl, rfl, rfl, rfl, rfl⟩
  | some a =>
    show (State.post _ _).book = _ ∧ _
    rw [State.leaveCrew?, State.leaveCrew, State.changeCrew]
    simp only [State.post_book, State.post_clock, State.post_ladders, State.post_acks, State.post_store,
      State.post_sched, State.post_line, State.post_registry, State.post_link]
    exact ⟨rfl, rfl, rfl, rfl, rfl, rfl, rfl, rfl, rfl, rfl⟩

/-- The accepting crew after the call left it, and its notice (R20, R31). -/
theorem leaveCrew?_crew (s : State) (n a : Nat) :
    (s.leaveCrew? n (some a)).crew a =
        { s.crew a with accepted := (s.crew a).accepted.filter (fun m => decide (m ≠ n)) } ∧
      .crew a ∈ (s.leaveCrew? n (some a)).link.notices := by
  refine ⟨?_, State.mem_post _ _⟩
  rw [State.leaveCrew?, State.leaveCrew, State.changeCrew, State.post_crew, State.putCrew_crew_eq]
  split
  · rfl
  · next h =>
    have : s.crew a = .undefined := row_outside _ _ _ (by omega)
    rw [this]
    rfl

theorem leaveCrew?_crew_ne (s : State) (n : Nat) {a : Option Nat} {k : Nat} (h : a ≠ some k) :
    (s.leaveCrew? n a).crew k = s.crew k := by
  cases a with
  | none => rfl
  | some a =>
    rw [State.leaveCrew?, State.leaveCrew, State.changeCrew, State.post_crew, State.putCrew_crew_eq]
    exact if_neg fun e => h (congrArg some e.1.symm)

/-- Which blocks the mark of a close is not part of. -/
theorem markClosed_rest (s : State) (r : CloseReason) (n : Nat) :
    (s.markClosed r n).clock = s.clock ∧ (s.markClosed r n).ladders = s.ladders ∧ (s.markClosed r n).acks = s.acks ∧
      (s.markClosed r n).store = s.store ∧ (s.markClosed r n).sched = s.sched ∧ (s.markClosed r n).line = s.line ∧
      (s.markClosed r n).registry = s.registry ∧
      (s.markClosed r n).link = { s.link with notices := (s.markClosed r n).link.notices } := by
  unfold State.markClosed
  simp only [State.setBook_clock, State.setBook_ladders, State.setBook_acks, State.setBook_store, State.setBook_sched,
    State.setBook_line, State.setBook_registry, State.setBook_link, State.changeCall_clock, State.changeCall_ladders,
    State.changeCall_acks, State.changeCall_store, State.changeCall_sched, State.changeCall_line,
    State.changeCall_registry, true_and]
  exact changeCall_link _ _ _

theorem markClosed_book (s : State) (r : CloseReason) (n : Nat) : (s.markClosed r n).book =
    { s.book with calls := (s.markClosed r n).book.calls, closedOrder := s.book.closedOrder ++ [n] } := by
  unfold State.markClosed
  rw [State.setBook_book, changeCall_book]

/-- A call's posts stay while a change posts more. -/
theorem markClosed_posted {s : State} {k : NoticeKey} (h : k ∈ s.link.notices) (r : CloseReason) (n : Nat) :
    k ∈ (s.markClosed r n).link.notices := by
  show k ∈ (State.changeCall _ _ _).link.notices
  unfold State.changeCall
  split
  · exact h
  · rw [State.post_link]
    dsimp only
    rw [State.putCall_link]
    split
    · exact h
    · exact List.mem_append_left _ h

/-- The settling of a call point writes the table of points alone (R21). -/
theorem settlePoint_eq (s : State) (c : Call) :
    s.settlePoint c = s.setBook { s.book with points := (s.settlePoint c).book.points } := by
  unfold State.settlePoint
  split
  · rfl
  · split
    · rfl
    · split <;> rfl

/-- The entry of a closed call goes back to IDLE where it is OPEN with it (R21). -/
theorem settlePoint_findPoint (s : State) (c : Call) {st i : Nat} {p : CallPoint} (hf : s.findPoint st i = some p) :
    (s.settlePoint c).findPoint st i =
      if c.source = .callPoint st i ∧ p.state = .opened c.number then some { p with state := .idle } else some p := by
  unfold State.settlePoint
  cases hs : c.source with
  | plantComputer => rw [if_neg (by simp)]; exact hf
  | callPoint a b =>
    dsimp only
    by_cases hk : a = st ∧ b = i
    · obtain ⟨rfl, rfl⟩ := hk
      rw [hf]
      dsimp only
      by_cases hp : p.state = .opened c.number
      · obtain ⟨h1, h2⟩ := State.findPoint_key hf
        rw [if_pos hp, if_pos ⟨rfl, hp⟩, setPoint_findPoint, hf]
        simp [h1, h2]
      · rw [if_neg hp, if_neg fun h => hp h.2, hf]
    · rw [if_neg fun h => hk (CallSource.callPoint.inj h.1)]
      cases hq : s.findPoint a b with
      | none => exact hf
      | some q =>
        dsimp only
        split
        · obtain ⟨rfl, rfl⟩ := State.findPoint_key hf
          rw [setPoint_findPoint, hf]
          have : ¬ (p.station = a ∧ p.input = b) := fun e => hk ⟨e.1.symm, e.2.symm⟩
          simp [this]
        · exact hf

theorem closedFor_core {x c : Call} (h : x.core = c.core) (r : CloseReason) (now : Tick) :
    (x.closedFor r now).core = (c.closedFor r now).core := by
  rw [Call.eq_of_core h]
  rfl

/-- The close of an open call's record, its call point settled (R20, R21). -/
theorem closes {s : State} {c : Call} (hc : s.findCall c.number = some c) (r : CloseReason) :
    s.Closes ((s.closeRecord r c).settlePoint c) r c := by
  have e := (engine_sendCloseNotes s r c).frame
  obtain ⟨x, hx, hcore⟩ := sendCloseNotes_found s r c hc
  have hreg := sendCloseNotes_registry s r c
  have hpages := sendCloseNotes_noPages s r c
  have hsend := sendCloseNotes_eq s r c
  have hcrew : ∀ k, (s.sendCloseNotes r c).crew k = s.crew k := crew_of_registry hreg
  have hrec := closeRecord_eq s r c
  generalize s.sendCloseNotes r c = v at *
  obtain ⟨l1, l2, l3, l4, l5, l6, l7, l8, l9, l10⟩ := leaveCrew?_rest v c.number c.accepting
  obtain ⟨m1, m2, m3, m4, m5, m6, m7, m8⟩ := markClosed_rest (v.leaveCrew? c.number c.accepting) r c.number
  have mb := markClosed_book (v.leaveCrew? c.number c.accepting) r c.number
  have mc := markClosed_findCall (v.leaveCrew? c.number c.accepting) r c.number
  have mp : ∀ k, k ∈ (v.leaveCrew? c.number c.accepting).link.notices → k ∈ (s.closeRecord r c).link.notices :=
    fun k hk => hrec ▸ markClosed_posted hk r c.number
  have posted : .call c.number ∈ (s.closeRecord r c).link.notices := by
    rw [hrec]
    exact State.changeCall_posts _ _ _ ((State.leaveCrew?_findCall v c.number c.number c.accepting).trans hx)
  rw [← hrec] at m1 m2 m3 m4 m5 m6 m7 m8 mb mc
  have he := settlePoint_eq (s.closeRecord r c) c
  have hp := fun st i p => settlePoint_findPoint (s.closeRecord r c) c (st := st) (i := i) (p := p)
  have hpts : (s.closeRecord r c).book.points = s.book.points := by
    rw [mb, l1, e.book]
  generalize (s.closeRecord r c).settlePoint c = t at he hp
  have hcrews : ∀ k, t.crew k = (v.leaveCrew? c.number c.accepting).crew k := fun k => by
    rw [he]
    exact crew_of_registry m7 k
  refine ⟨⟨x.closedFor r s.clock, ?_, closedFor_core hcore r _⟩, ?_, ?_, fun st y hy => ?_, ?_, fun a ha => ⟨?_, ?_⟩,
    fun k hk => ?_, fun st i p hf => ?_, fun m hm => ?_, ⟨?_, ?_, ?_, ?_, ?_, ?_⟩, ?_⟩
  · rw [he]
    refine (mc c.number).trans ?_
    rw [State.leaveCrew?_findCall, hx, l2, e.clock]
    simp
  · rw [he, State.setBook_book, mb, l1, e.book]
  · rw [he]
    exact posted
  · rw [he] at hy
    have hq : (s.closeRecord r c).queue st = v.queue st := by
      unfold State.queue
      rw [m5, l6]
    exact hpages st y (hq ▸ hy)
  · refine ⟨s.withdrawPages c.number, rfl, rfl, rfl, rfl, rfl, ?_, ?_, ?_⟩
    · rw [State.withdrawPages_findCall, hc]
      rfl
    · rw [he, ← hsend]
      exact m5.trans l6
    · rw [he, ← hsend]
      exact m6.trans l7
  · rw [hcrews, ha, ← hcrew]
    exact (leaveCrew?_crew v c.number a).1
  · rw [he]
    refine mp _ ?_
    rw [ha]
    exact (leaveCrew?_crew v c.number a).2
  · rw [hcrews, leaveCrew?_crew_ne v c.number hk, hcrew]
  · refine hp st i p ?_
    unfold State.findPoint at hf ⊢
    rw [hpts]
    exact hf
  · rw [he]
    show ((s.closeRecord r c).findCall m).map Call.core = _
    rw [mc, State.leaveCrew?_findCall]
    simp only [hm, if_false, Option.map_id']
    exact e.others m id
  · rw [he]; exact m1.trans (l2.trans e.clock)
  · rw [he]; exact m2.trans (l3.trans e.ladders)
  · rw [he]; exact m3.trans (l4.trans e.acks)
  · rw [he]; exact m4.trans (l5.trans e.store)
  · rw [he]
    show (s.closeRecord r c).registry.directory = _
    rw [m7, l8, hreg]
  · rw [he]
    show (s.closeRecord r c).registry.pools = _
    rw [m7, l9, hreg]
  · rw [he, State.setBook_link, m8, l10, e.link]

/-- The close of an open call with what it serves (R17, R20, R21). -/
theorem closesAndServes {s : State} {c : Call} (hc : s.findCall c.number = some c) (r : CloseReason)
    (room : s.book.calls.length ≤ 96) (hl : ∀ l, (s.ladder l).inRange = true) :
    s.ClosesAndServes (s.closeCall r c.number) r c := by
  have h := closes hc r
  refine ⟨_, h, fun hp => ?_, fun key rest hp => ?_⟩
  all_goals
    rw [closeCall_eq s r _ c hc]
    have hp' : ((s.closeRecord r c).settlePoint c).book.pendingPresses = _ :=
      (congrArg CallBook.pendingPresses h.book).trans hp
  · exact servePending_nil _ hp'
  · have horder : ((s.closeRecord r c).settlePoint c).book.closedOrder = s.book.closedOrder ++ [c.number] :=
      congrArg CallBook.closedOrder h.book
    have hcount : ((s.closeRecord r c).settlePoint c).book.calls.length = s.book.calls.length := by
      rw [(settlePoint_calls _ c).1]
      exact (closeRecord_book s r c).2.2.2
    have hlad : ∀ l, ((s.closeRecord r c).settlePoint c).ladder l = s.ladder l := fun l => by
      unfold State.ladder
      rw [h.tables.2.1]
    generalize (s.closeRecord r c).settlePoint c = u at *
    obtain ⟨m, ms, hm⟩ := List.exists_cons_of_ne_nil (l := u.book.closedOrder) (by rw [horder]; simp)
    have ht : u.takePress rest = { u.without m with book := { (u.without m).book with pendingPresses := rest } } := by
      unfold State.takePress State.evictOldest
      rw [hm]
      rfl
    refine ⟨m, ms, u.takePress rest, hm, ht, fun hf => ?_, fun p hf => ?_⟩
    all_goals
      rw [servePending_cons u key rest hp', hf]
    refine raisesFrom ?_ (fun l => ?_) p
    · rw [ht]
      exact (List.length_filter_le _ _).trans (hcount.trans_le room)
    · rw [ht]
      exact (congrArg Ladder.inRange (hlad l)).trans (hl l)

end Sys2Proof.Machine
end

section
/-!
SUPPORT. The requests and the records that close a call, and the arrival of its crew (R19, R86 to R88). It settles
O19 and O37.
-/

namespace Sys2Proof.Machine

/-! ### CLEAR and CANCEL -/

/-- A number read from two characters is written as the same two. -/
theorem enc2_dec2 (hi lo : Byte) : enc2 (dec2 hi lo) = [hi, lo] := by
  unfold enc2 dec2
  have e : ∀ {x : Byte} {n : Nat}, n % 256 = x.toNat → BitVec.ofNat 8 n = x := fun h =>
    BitVec.eq_of_toNat_eq ((BitVec.toNat_ofNat _ _).trans h)
  rw [e (x := hi) (by omega), e (x := lo) (by omega)]

/-- A request that closes an open call answers with its number and serves a waiting press (R17, R19). -/
theorem onOpenCall_closes {s : State} {hi lo : Byte} {c : Call} (r : CloseReason)
    (hn : dec2 hi lo ≠ 0) (hc : s.findCall (dec2 hi lo) = some c) (ho : c.state ≠ .closed) :
    (s.onOpenCall (dec2 hi lo) fun _ => (s.closeCall r (dec2 hi lo)).answer (enc2 (dec2 hi lo))) =
      (s.closeCall r c.number).answer [hi, lo] := by
  rw [onOpenCall_found _ hn hc ho, enc2_dec2, State.findCall_number hc]

/-- Settles O19: both requests close the call they find, each with its own reason. -/
theorem clearAndCancelCloseTheCall : Obligations.ClearAndCancelCloseTheCall := by
  intro s i tag kind hi lo r c h hi' hn hc ho room hl
  have two : [hi, lo].length ≤ 250 := Nat.le_add_left 2 248
  have answer := onOpenCall_closes (s := s.heard) r hn hc ho
  have closed : s.heard.ClosesAndServes (s.heard.closeCall r c.number) r c :=
    closesAndServes ((congrArg s.heard.findCall (State.findCall_number hc)).trans hc) r room hl
  refine ⟨_, ?_, closed⟩
  rcases hi' with ⟨rfl, rfl, rfl⟩ | ⟨rfl, rfl, rfl⟩
  · exact (exec_clear h tag _ two answer).trans rfl
  · exact (exec_cancel h tag _ two answer).trans rfl

/-! ### The arrival of the crew -/

/-- Nothing is posted by a change of a call whose record is posted already. -/
theorem changeCall_quiet_posted (s : State) (n : Nat) (f : Call → Call) (hf : ∀ c, (f c).heldBeacon = c.heldBeacon)
    (hp : .call n ∈ s.link.notices) :
    s.changeCall n f = { s with book := { s.book with calls := (s.changeCall n f).book.calls } } := by
  have posted : (s.changeCall n f).link.notices = s.link.notices := by
    unfold State.changeCall
    cases s.findCall n with
    | none => rfl
    | some c =>
      dsimp only
      rw [State.post_link, State.putCall_link, if_pos hp]
  refine (changeCall_quiet s n f hf).trans ?_
  rw [posted]

/-- The record of a call at which its crew has arrived. -/
theorem arrived_found {s : State} {n : Nat} {x : Call} (hx : s.findCall n = some x) (f : Call → Option Tick) :
    (s.changeCall n (Call.arrived f)).findCall n =
      some { x with state := .onScene, arrivalDeadline := none, onSceneTick := f x } := by
  rw [State.changeCall_findCall s n n (Call.arrived f) fun _ => rfl, hx]
  simp [Call.arrived]

/-- What was posted stays posted. -/
theorem mem_post_of_mem {s : State} {k : NoticeKey} (h : k ∈ s.link.notices) (j : NoticeKey) :
    k ∈ (s.post j).link.notices := by
  rw [State.post_link]
  dsimp only
  split
  · exact h
  · exact List.mem_append_left _ h

/-- The record of a call that a crew accepts is posted (R3, R81). -/
theorem acceptCall_posts {s : State} {c : Call} (hc : s.findCall c.number = some c) (crew : Nat) (heard : Tick) :
    .call c.number ∈ (s.acceptCall c crew heard).link.notices := by
  refine (engine_acceptCall s c crew heard).frame.posted ?_
  unfold State.acceptRecord State.changeCrew
  refine mem_post_of_mem ?_ _
  exact State.changeCall_posts s c.number _ hc

/-- The tick of an arrival, with the comparison of ticks spelled out (R87, Conventions). -/
theorem arrivalTick_eq (accept : Option Tick) (heard : Tick) :
    arrivalTick accept heard = match accept with
      | none => heard
      | some a => if 1 ≤ (a - heard).toNat ∧ (a - heard).toNat < 8388608 then a else heard := by
  cases accept with
  | none => rfl
  | some a =>
    simp only [arrivalTick, earlier, decide_eq_true_eq]
    rfl

/-- Settles O37, case by case over the state of the call. -/
theorem arrivalAndDoneOfTheAcceptor : Obligations.ArrivalAndDoneOfTheAcceptor := by
  intro s c crew heard hc
  refine ⟨fun hs ha => ?_, fun hs hp hr => ?_, fun hs ha room hl => ?_, fun hs ha => ?_, fun hs => ?_, fun hs => ?_⟩
  · have he : s.ackOnScene c crew heard = s.changeCall c.number
        (Call.arrived fun c => some (arrivalTick c.acceptTick heard)) := by
      unfold State.ackOnScene
      rw [hs]
      exact if_pos ha
    rw [he]
    refine ⟨_, ?_, rfl, State.changeCall_posts s _ _ hc, changeCall_quiet s _ _ fun _ => rfl,
      fun m hm => changeCall_findCall_ne s hm _ fun _ => rfl⟩
    refine (arrived_found hc _).trans ?_
    exact congrArg (fun t => some { c with state := .onScene, arrivalDeadline := none, onSceneTick := some t })
      (arrivalTick_eq c.acceptTick heard)
  · obtain ⟨x, hx, hcore⟩ := acceptCall_found s c crew heard hc
    have hroom : s.hasRoom crew = true := decide_eq_true hr
    have accepts : s.ackAccept c crew heard = s.acceptCall c crew heard := by
      unfold State.ackAccept
      rcases hs with e | e <;> simp [e, hp, hroom]
    have arrives : s.ackOnScene c crew heard = (s.acceptCall c crew heard).changeCall c.number
        (Call.arrived Call.acceptTick) := by
      unfold State.ackOnScene
      rcases hs with e | e <;> simp [e, hp, hroom] <;> rfl
    have tick : x.acceptTick = some heard := congrArg Call.acceptTick hcore
    refine ⟨_, x, accepts, hx, ?_, ?_, fun m hm => ?_⟩
    all_goals rw [arrives]
    · rw [arrived_found hx, tick]
    · exact changeCall_quiet_posted _ _ _ (fun _ => rfl) (acceptCall_posts hc crew heard)
    · exact changeCall_findCall_ne _ hm _ fun _ => rfl
  · have closed : s.ackDone c crew = s.closeCall .doneByCrew c.number := by
      unfold State.ackDone
      rcases hs with e | e <;> simp [e, ha]
    rw [closed]
    exact closesAndServes hc _ room hl
  · unfold State.ackOnScene State.ackDone
    rcases hs with e | e <;> simp [e, ha]
  · unfold State.ackOnScene
    rw [hs]
  · unfold State.ackDone
    rcases hs with e | e <;> simp [e]

end Sys2Proof.Machine
end

section
/-!
SUPPORT. The call that RAISE creates, and its first step with and without a preferred crew (R4, R8, R53). It settles
O16.
-/

namespace Sys2Proof.Machine

/-! ### The first step of a new call -/

/-- A crew named as a target is one exactly when it is defined and ON_DUTY (R52). -/
theorem resolveCrew_onDuty {s : State} {k : Nat} (h : (s.crew k).defined = true ∧ (s.crew k).duty = .onDuty) :
    s.resolveCrew k = ⟨[k], none, false, false⟩ := if_pos h

theorem resolveCrew_away {s : State} {k : Nat} (h : ¬ ((s.crew k).defined = true ∧ (s.crew k).duty = .onDuty)) :
    s.resolveCrew k = ⟨[], none, false, true⟩ := if_neg h

/-- Step 1 started for a preferred crew takes all but its target from the ladder's step 1 (R53). -/
theorem startCall_preferred_eq {s t : State} {n : Nat} {c : Call} (h : s.At t n c) {x : LadderStep}
    (hx : (s.ladder c.ladder).steps[0]? = some x) (p : Nat) :
    ∃ v, s.At v n (stepBookkeeping s.clock (s.factor c.cls) 1 x.window x.repeats c) ∧
      t.startCall n (some p) =
        State.enterStep (State.advance Config.chainLimit n) n x.beacon (s.resolveCrew p, v) := by
  have hget : (t.ladder c.ladder).steps.getD (1 - 1) .default = x := by
    rw [h.ladder, List.getD_eq_getElem?_getD, hx]
    rfl
  have hb := h.change (stepBookkeeping s.clock (s.factor c.cls) 1 x.window x.repeats) fun _ => rfl
  refine ⟨_, hb, ?_⟩
  unfold State.startCall
  rw [startStep_eq _ n 1 (some p) t c x h.found hget, h.clock, h.factor, ← resolveCrew_of_registry hb.registry]
  rfl

/-- A preferred crew that can be paged is the one target of step 1 (R53). -/
theorem startCall_preferred {s t : State} {n p : Nat} {c : Call} (h : s.At t n c) (hs : c.state = .paging)
    {x : LadderStep} (hx : (s.ladder c.ladder).steps[0]? = some x)
    (duty : (s.crew p).defined = true ∧ (s.crew p).duty = .onDuty) :
    ∃ c', (t.startCall n (some p)).findCall n = some c' ∧
      Call.StepBegun s.clock (s.factor c.cls) x.window x.repeats 1 c c' ∧ c'.targets = [p] ∧
      c'.stepPool = none ∧ c'.directed = false ∧ c'.referred = false ∧ c'.restarts = c.restarts ∧
      c'.heldBeacon = (match x.beacon with | none => c.heldBeacon | some z => some z) ∧
      s.HandsOver (t.startCall n (some p)) n false (s.pagesFor c [p]) := by
  obtain ⟨v, hv, e⟩ := startCall_preferred_eq h hx p
  rw [e, resolveCrew_onDuty duty]
  obtain ⟨wide, found, -, hands⟩ :=
    completeStep_spec (hv.change (Call.resolved ⟨[p], none, false, false⟩) fun _ => rfl) rfl [p] x.beacon
  exact ⟨_, found, stepBegun_completed s.clock (s.factor c.cls) 1 x.window x.repeats c c.course hs _ _ _,
    rfl, rfl, rfl, rfl, rfl, rfl, hands⟩

/-- Record `c` with what entry 31 leaves open of `d`. -/
def Call.stamped (c d : Call) : Call :=
  { c with
    stepStart := d.stepStart, window := d.window, interval := d.interval, repeats := d.repeats
    attempts := d.attempts }

/-- What an advance makes of a call says nothing about the fields that entry 31 leaves open, but for a call that is
exhausted at once, which keeps them. -/
theorem State.AdvancesTo.stamped {s t : State} {c c' : Call} (h : s.AdvancesTo t c c') :
    s.AdvancesTo t (c.stamped c') c' := by
  rcases h with ⟨⟨i, x, h1, hx, hne, begun, rest⟩, hands⟩ | ⟨up, rest⟩
  · exact .inl ⟨⟨i, x, h1, hx, hne, { begun with same := { begun.same with } }, rest⟩, hands⟩
  · refine .inr ⟨⟨fun h1 h2 => ?_, fun h => ?_⟩, rest⟩
    · have e := up.atOnce h1 h2
      subst e
      rfl
    · exact up.throughEmptySteps h

/-- A new call whose step 1 is empty advances from it (R53, R54). -/
theorem startCall_passed {s t : State} {n p o lad : Nat} {src : CallSource} {cls : Cls} {text : Text}
    {pref : Option Nat} {now : Tick} (hl : (s.ladder lad).inRange = true)
    (h : s.At t n (newCall n src o cls lad text pref now))
    (away : ¬ ((s.crew p).defined = true ∧ (s.crew p).duty = .onDuty)) :
    ∃ c', (t.startCall n (some p)).findCall n = some c' ∧
      s.AdvancesTo (t.startCall n (some p)) ((newCall n src o cls lad text pref now).stamped c') c' := by
  obtain ⟨some', -, -⟩ := ladder_bounds hl
  obtain ⟨v, hv, e⟩ := startCall_preferred_eq h (List.getElem?_eq_getElem some') p
  rw [e, resolveCrew_away away]
  generalize (s.ladder lad).steps[0] = x at hv
  have passed := hv.change (Call.resolved ⟨[], none, false, true⟩) fun _ => rfl
  generalize hd : Call.resolved _ (stepBookkeeping _ _ _ _ _ _) = d at passed
  have course : d = ((newCall n src o cls lad text pref now).stamped d).onCourse d.course := by
    rw [← hd]
    rfl
  have found := advance_spec (c := (newCall n src o cls lad text pref now).stamped d) some' Config.chainLimit _
    d.course (course ▸ passed) (.inl (by rw [← hd]; rfl)) (by rw [← hd]; exact State.Trail.start s _ _)
    (chain_bound hl _ _)
  obtain ⟨c', found, adv⟩ := found
  exact ⟨c', found, adv.stamped⟩

/-! ### RAISE -/

/-- The record that RAISE creates in book `u`. -/
def State.requestedCall (u : State) (cls : Cls) (lad o pref : Nat) (text : Text) : Call :=
  newCall u.book.nextNumber .plantComputer o cls lad text (optRef pref) u.clock

/-- The first step of the call that RAISE creates, with the preferred crew it names or without one (R53). -/
theorem requested_starts {u t : State} {cls : Cls} {lad o pref : Nat} {text : Text}
    (hl : (u.ladder lad).inRange = true)
    (h : u.At t u.book.nextNumber (u.requestedCall cls lad o pref text)) :
    ∃ c, (t.startCall u.book.nextNumber (optRef pref)).findCall u.book.nextNumber = some c ∧
      (pref = 0 → u.AdvancesTo (t.startCall u.book.nextNumber (optRef pref))
        { u.requestedCall cls lad o pref text with stepIndex := 0 } c) ∧
      (pref ≠ 0 → (u.crew pref).defined = true → (u.crew pref).duty = .onDuty →
        ∃ x, (u.ladder lad).steps[0]? = some x ∧
          Call.StepBegun u.clock (u.factor cls) x.window x.repeats 1 (u.requestedCall cls lad o pref text) c ∧
          c.targets = [pref] ∧ c.stepPool = none ∧ c.directed = false ∧ c.referred = false ∧ c.restarts = 0 ∧
          c.heldBeacon = x.beacon ∧
          u.HandsOver (t.startCall u.book.nextNumber (optRef pref)) u.book.nextNumber false (u.pagesFor c [pref])) ∧
      (pref ≠ 0 → ¬ ((u.crew pref).defined = true ∧ (u.crew pref).duty = .onDuty) →
        u.AdvancesTo (t.startCall u.book.nextNumber (optRef pref))
          ((u.requestedCall cls lad o pref text).stamped c) c) := by
  by_cases hp : pref = 0
  · subst hp
    obtain ⟨c, found, adv⟩ := startCall_done hl h rfl
    exact ⟨c, found, fun _ => adv, fun h => absurd rfl h, fun h => absurd rfl h⟩
  · rw [show optRef pref = some pref from if_neg hp]
    by_cases duty : (u.crew pref).defined = true ∧ (u.crew pref).duty = .onDuty
    · obtain ⟨x, hx⟩ : ∃ x, (u.ladder lad).steps[0]? = some x :=
        ⟨_, List.getElem?_eq_getElem (ladder_bounds hl).1⟩
      obtain ⟨c, found, begun, ht, hpool, hdir, href, hres, hb, hands⟩ := startCall_preferred h rfl hx duty
      refine ⟨c, found, fun e => absurd e hp, fun _ _ _ => ⟨x, hx, begun, ht, hpool, hdir, href, hres, ?_, ?_⟩,
        fun _ away => absurd duty away⟩
      · refine hb.trans ?_
        cases x.beacon <;> rfl
      · obtain ⟨hn, -, -, hcls, -, htext, -, -⟩ := begun.same
        unfold State.pagesFor at hands ⊢
        rw [hn, hcls, htext]
        exact hands
    · obtain ⟨c, found, adv⟩ := startCall_passed hl h duty
      exact ⟨c, found, fun e => absurd e hp, fun _ h1 h2 => absurd ⟨h1, h2⟩ duty, fun _ _ => adv⟩

/-- The state in which RAISE has created its call and started it. -/
def State.requested (u : State) (cls : Cls) (lad o pref : Nat) (text : Text) : State :=
  (u.addCall (u.requestedCall cls lad o pref text)).startCall u.book.nextNumber (optRef pref)

/-- What RAISE leaves as it is, or adds, apart from its record (R5, R8). -/
theorem requested_added {u : State} (room : u.book.calls.length ≤ 96) (cls : Cls) (lad o pref : Nat) (text : Text) :
    u.Added (u.requested cls lad o pref text) u.book.nextNumber ∧
      (u.requested cls lad o pref text).book = { u.book with
        calls := (u.requested cls lad o pref text).book.calls, counter := u.book.nextNumber } := by
  have e : Engine (onlyCall u.book.nextNumber) (u.addCall (u.requestedCall cls lad o pref text))
      (u.requested cls lad o pref text) :=
    engine_raise (c := u.requestedCall cls lad o pref text) room rfl rfl (optRef pref)
  have added := (added_addCall (c := u.requestedCall cls lad o pref text) (nextNumber_free room)).engine e
  have points : (u.requested cls lad o pref text).book.points = u.book.points := by
    rw [e.frame.book, (State.addCall_points _ _).1]
  exact ⟨added, added.book.trans (by rw [points]; rfl)⟩

/-- RAISE with values in range answers with the number of the call it created in the slot obtained (R5, R8). -/
theorem exec_raise_requested {s u : State} (h : s.TakesRequests) (tag : Byte) (cls : Cls) {lad o pref : Nat}
    {text : Text} (h1 : 1 ≤ lad) (h2 : lad ≤ 16) (h3 : 1 ≤ o) (h4 : o ≤ 12) (h5 : pref ≤ 48)
    (ht : text.length ≤ 245) (slot : s.heard.obtainSlot = some u) :
    exec (.raise tag ([BitVec.ofNat 8 cls.rank, BitVec.ofNat 8 lad, BitVec.ofNat 8 o, BitVec.ofNat 8 pref,
        BitVec.ofNat 8 text.length] ++ text)) s =
      .next ((u.requested cls lad o pref (cleanText 40 text)).replying 0x81#8 tag .ok (enc2 u.book.nextNumber)) := by
  have hr : cls.rank < 256 := by cases cls <;> decide
  have code : Cls.ofCode (BitVec.ofNat 8 cls.rank : Byte).toNat = some cls := by
    rw [toNat_count hr, ofCode_rank]
  have e1 : (BitVec.ofNat 8 lad : Byte).toNat = lad := toNat_count (by omega)
  have e2 : (BitVec.ofNat 8 o : Byte).toNat = o := toNat_count (by omega)
  have e3 : (BitVec.ofNat 8 pref : Byte).toNat = pref := toNat_count (by omega)
  have answer := reqRaise_inRange s.heard (l := BitVec.ofNat 8 lad) (o := BitVec.ofNat 8 o)
    (p := BitVec.ofNat 8 pref) ht code (e1.symm ▸ ⟨h1, h2⟩) (e2.symm ▸ ⟨h3, h4⟩) (e3.symm ▸ h5)
  rw [e1, e2, e3, slot] at answer
  refine (exec_raise h tag _ ?_ answer).trans rfl
  simp only [List.length_append, List.length_cons, List.length_nil]
  omega

/-- The slot that RAISE obtains (R5). -/
theorem obtainSlot_of_room {s u : State}
    (h : s.book.calls.length < 96 ∧ u = s.heard ∨
      ∃ m rest, s.book.calls.length = 96 ∧ s.book.closedOrder = m :: rest ∧ u = s.heard.without m) :
    s.heard.obtainSlot = some u ∧ u.book.calls.length ≤ 96 := by
  unfold State.obtainSlot
  rcases h with ⟨room, rfl⟩ | ⟨m, rest, full, order, rfl⟩
  · exact ⟨if_pos room, Nat.le_of_lt room⟩
  · refine ⟨?_, (List.length_filter_le _ _).trans (Nat.le_of_eq full)⟩
    rw [if_neg (show ¬ s.heard.book.calls.length < Config.maxCalls from full ▸ Nat.lt_irrefl 96),
      show s.heard.book.closedOrder = m :: rest from order]
    rfl

/-- Settles O16: the slot, the new record in it, its first step, and what neither of them touches. -/
theorem raiseCreatesACall : Obligations.RaiseCreatesACall := by
  intro s u tag cls lad o pref text h h1 h2 h3 h4 h5 ht _ hl hu
  obtain ⟨slot, room⟩ := obtainSlot_of_room hu
  obtain ⟨added, book⟩ := requested_added room cls lad o pref (cleanText 40 text)
  have same : u.clock = s.clock ∧ u.ladders = s.ladders ∧ u.acks = s.acks ∧ u.store = s.store ∧
      u.registry = s.registry ∧ u.line = s.line := by
    rcases hu with ⟨-, rfl⟩ | ⟨m, rest, -, -, rfl⟩ <;> exact ⟨rfl, rfl, rfl, rfl, rfl, rfl⟩
  obtain ⟨clock, ladders, acks, store, registry, line⟩ := same
  have ladder : u.ladder lad = s.ladder lad := by
    unfold State.ladder
    rw [ladders]
  have factor : u.factor cls = s.factor cls := by
    unfold State.factor
    rw [store]
  have pages : ∀ c ks, u.pagesFor c ks = s.pagesFor c ks := fun c ks => by
    unfold State.pagesFor State.crew
    rw [registry]
  obtain ⟨c, found, plain, preferred, away⟩ := requested_starts (t := u.addCall _) (ladder ▸ hl)
    (at_addCall (c := u.requestedCall cls lad o pref (cleanText 40 text)) (nextNumber_free room))
  simp only [crew_of_registry registry, ladder, factor, pages] at preferred away
  rw [clock] at preferred
  refine ⟨_, u.requested cls lad o pref (cleanText 40 text), c, u.requestedCall cls lad o pref (cleanText 40 text),
    rfl, ?_, exec_raise_requested h tag cls h1 h2 h3 h4 h5 ht slot, found, plain, preferred, away, added.posted,
    added.others, book, added.link, added.clock.trans clock, added.ladders.trans ladders, added.acks.trans acks,
    added.store.trans store, added.crews.trans (congrArg Registry.crews registry),
    added.directory.trans (congrArg Registry.directory registry), ?_⟩
  · unfold State.requestedCall
    rw [clock]
    rfl
  · rw [added.line, line]

end Sys2Proof.Machine
end

section
/-!
SUPPORT. The choice of crews from a pool, position by position (R36 to R38), and SET_POOL (R39). It settles O23 and O25.
-/

namespace Sys2Proof.Machine

/-! ### The search of a pool's list (R36, R37) -/

/-- A crew is eligible as R36 says. -/
theorem eligible_iff (s : State) (targets declined : List Nat) (c : Nat) :
    s.eligible targets declined c = true ↔ (s.crew c).defined = true ∧ (s.crew c).duty = .onDuty ∧
      (s.crew c).accepted = [] ∧ c ∉ targets ∧ c ∉ declined := by
  simp [State.eligible, and_assoc]

theorem searchFrom_length (p : Pool) : (searchFrom p).length = p.crews.length := by
  simp [searchFrom]
  omega

/-- The search visits the positions from the one after the pointer on, and round to the pointer's own (R37). -/
theorem searchFrom_getElem? {p : Pool} (hp : p.pointer ≤ p.crews.length) {i : Nat} (hi : i < p.crews.length) :
    (searchFrom p)[i]? = (p.crews[(p.pointer + i) % p.crews.length]?).map
      fun c => ((p.pointer + i) % p.crews.length + 1, c) := by
  have len : ((List.range' 1 p.crews.length).zip p.crews).length = p.crews.length := by simp
  have rotated : searchFrom p = ((List.range' 1 p.crews.length).zip p.crews).rotate p.pointer :=
    (List.rotate_eq_drop_append_take (len.symm ▸ hp)).symm
  have inside : (p.pointer + i) % p.crews.length < p.crews.length := Nat.mod_lt _ (by omega)
  rw [rotated, List.getElem?_rotate (len.symm ▸ hi), len, Nat.add_comm i, List.getElem?_eq_getElem (len.symm ▸ inside),
    List.getElem_zip, List.getElem_range', List.getElem?_eq_getElem inside]
  simp [Nat.add_comm]

/-- The search passes over crews of the pool alone. -/
theorem searchFrom_crew {p : Pool} {x : Nat × Nat} (h : x ∈ searchFrom p) : x.2 ∈ p.crews := by
  have zipped : x ∈ (List.range' 1 p.crews.length).zip p.crews :=
    (List.mem_append.mp h).elim List.mem_of_mem_drop List.mem_of_mem_take
  exact (List.of_mem_zip zipped).2

/-- A choice of one crew from a pool with none eligible moves nothing (R37). -/
theorem chooseOne_of_none_eligible {s : State} {p : Nat} {targets declined : List Nat}
    (h : ∀ c ∈ (s.pool p).crews, ¬ s.eligible targets declined c = true) :
    s.chooseOne p targets declined = (none, s) := by
  have stopped : (searchFrom (s.pool p)).find? (fun x => s.eligible targets declined x.2) = none :=
    List.find?_eq_none.mpr fun x hx => h x.2 (searchFrom_crew hx)
  unfold State.chooseOne
  rw [stopped]

/-- A choice of one crew from a pool takes the first eligible one that the search visits, and the pointer moves to its
position (R37). -/
theorem chooseOne_of_first_eligible {s : State} {p : Nat} {targets declined : List Nat}
    (hp : (s.pool p).pointer ≤ (s.pool p).crews.length) {j : Nat} (hj : j < (s.pool p).crews.length) {c : Nat}
    (hc : (s.pool p).crews[((s.pool p).pointer + j) % (s.pool p).crews.length]? = some c)
    (fits : s.eligible targets declined c = true)
    (first : ∀ i, i < j → ∀ d, (s.pool p).crews[((s.pool p).pointer + i) % (s.pool p).crews.length]? = some d →
      ¬ s.eligible targets declined d = true) :
    s.chooseOne p targets declined = (some c, s.putPool p
      ⟨(s.pool p).crews, ((s.pool p).pointer + j) % (s.pool p).crews.length + 1⟩) := by
  have found : (searchFrom (s.pool p)).find? (fun x => s.eligible targets declined x.2) =
      some (((s.pool p).pointer + j) % (s.pool p).crews.length + 1, c) := by
    have hj' : j < (searchFrom (s.pool p)).length := searchFrom_length _ ▸ hj
    refine List.find?_eq_some_iff_getElem.mpr ⟨fits, j, hj', ?_, fun i hi => ?_⟩
    · refine Option.some.inj ((List.getElem?_eq_getElem hj').symm.trans ?_)
      rw [searchFrom_getElem? hp hj, hc]
      rfl
    · have visited := searchFrom_getElem? hp (hi.trans hj)
      rw [List.getElem?_eq_getElem (hi.trans hj')] at visited
      obtain ⟨d, hd, e⟩ := Option.map_eq_some_iff.mp visited.symm
      rw [← e]
      simpa using first i hi d hd
  unfold State.chooseOne
  rw [found]

/-- Settles O25: the choice of one crew along the search, and the choice of all as a filter of the list. -/
theorem poolChoices : Obligations.PoolChoices := by
  refine ⟨fun s p targets declined h1 h16 hp => ⟨fun unfit => ?_, fun j hj found first => ?_⟩,
    fun s p targets declined => ⟨List.filter_sublist, fun c => ?_⟩⟩
  · exact chooseOne_of_none_eligible fun c hc => mt (eligible_iff s targets declined c).mp (unfit c hc)
  · obtain ⟨c, hc, fits⟩ := found
    refine ⟨_, (chooseOne_of_first_eligible hp hj hc ((eligible_iff s targets declined c).mpr fits)
      fun i hi d hd => mt (eligible_iff s targets declined d).mp (first i hi d hd)).trans (by rw [hc]), ?_,
      fun k hk => ?_, rfl⟩
    · rw [State.putPool_pool_eq, if_pos ⟨rfl, h1, h16⟩]
    · rw [State.putPool_pool_eq, if_neg fun h => hk h.1]
  · unfold State.chooseAll
    split
    · next fits => exact List.count_filter ((eligible_iff s targets declined c).mpr fits)
    · next unfit =>
      refine List.count_eq_zero.mpr fun hc => unfit ?_
      exact (eligible_iff s targets declined c).mp (List.mem_filter.mp hc).2

/-! ### SET_POOL (R39) -/

theorem exec_setPool {s : State} (h : s.TakesRequests) (tag : Byte) (p : List Byte) (hp : p.length ≤ 250) {a : Answer}
    (ha : reqSetPool p s.heard = a) : exec (.setPool tag p) s = .next (State.sends 0x88#8 tag a) :=
  ha ▸ congrArg _ (receiveFrame_sends h 0x08#8 tag p hp)

theorem readPool_eq (p : Byte) {cs : List Byte} (h : cs.length ≤ 248) :
    readPool (p :: BitVec.ofNat 8 cs.length :: cs) = some (p.toNat, cs.map BitVec.toNat) := by
  show (if cs.length = (BitVec.ofNat 8 cs.length : Byte).toNat then _ else _) = _
  rw [toNat_count (by omega)]
  exact if_pos rfl

/-- The numbers of a SET_POOL are in range (R39). -/
def PoolListOk (p : Byte) (cs : List Byte) : Prop :=
  1 ≤ p.toNat ∧ p.toNat ≤ 16 ∧ cs.length ≤ 8 ∧ (∀ c ∈ cs, 1 ≤ c.toNat ∧ c.toNat ≤ 48) ∧ cs.Nodup

theorem poolListOk_iff (p : Byte) (cs : List Byte) : PoolListOk p cs ↔
    ¬ (!within 1 16 p.toNat || !decide ((cs.map BitVec.toNat).length ≤ 8) || !allWithin 1 48 (cs.map BitVec.toNat) ||
      !distinct (cs.map BitVec.toNat)) = true := by
  have numbers : (cs.map BitVec.toNat).Nodup ↔ cs.Nodup :=
    List.nodup_map_iff fun _ _ e => BitVec.eq_of_toNat_eq e
  simp [PoolListOk, within, allWithin, distinct, numbers, and_assoc, Nat.one_le_iff_ne_zero]

/-- SET_POOL, the store idle, replaces the list or refuses it (R39). -/
theorem reqSetPool_eq {s : State} (idle : s.store.state = .idle) (p : Byte) {cs : List Byte} (h : cs.length ≤ 248) :
    (PoolListOk p cs → reqSetPool (p :: BitVec.ofNat 8 cs.length :: cs) s.heard =
      (s.heard.putPool p.toNat ⟨cs.map BitVec.toNat, cs.length⟩).answer []) ∧
    (¬ PoolListOk p cs → reqSetPool (p :: BitVec.ofNat 8 cs.length :: cs) s.heard = s.heard.refuse .badValue) := by
  unfold reqSetPool
  rw [readPool_eq p h, State.withOperands, unlessSaving_idle idle, poolListOk_iff]
  refine ⟨fun ok => (if_neg ok).trans ?_, fun bad => if_pos (not_not.mp bad)⟩
  rw [List.length_map]

/-- Settles O23: a list in range is put in the pool's place, and any other is refused. -/
theorem setPoolReplacesTheList : Obligations.SetPoolReplacesTheList := by
  intro s tag p cs h idle hl
  have size : (p :: BitVec.ofNat 8 cs.length :: cs).length ≤ 250 := by simp; omega
  obtain ⟨replaces, refuses⟩ := reqSetPool_eq idle p hl
  refine ⟨fun ok => ⟨s.heard.putPool p.toNat ⟨cs.map BitVec.toNat, cs.length⟩, ?_, ?_, fun k hk => ?_, rfl⟩,
    fun bad => exec_setPool h tag _ size (refuses bad)⟩
  · exact exec_setPool h tag _ size (replaces ok)
  · rw [State.putPool_pool_eq, if_pos ⟨rfl, ok.1, ok.2.1⟩]
  · rw [State.putPool_pool_eq, if_neg fun e => hk e.1]
    rfl

end Sys2Proof.Machine
end

section
/-!
SUPPORT. The queries of the registry and of the ladders, with the layouts of their replies (R40, R41, R49). It settles
O24.
-/

namespace Sys2Proof.Machine

section
variable {s : State} (h : s.TakesRequests) (tag : Byte) (p : List Byte) (hp : p.length ≤ 250) {a : Answer}
include h hp

theorem exec_queryCrew (ha : reqQueryCrew p s.heard = a) : exec (.queryCrew tag p) s = .next (State.sends 0x89#8 tag a) :=
  ha ▸ congrArg _ (receiveFrame_sends h 0x09#8 tag p hp)

theorem exec_queryPool (ha : reqQueryPool p s.heard = a) : exec (.queryPool tag p) s = .next (State.sends 0x8A#8 tag a) :=
  ha ▸ congrArg _ (receiveFrame_sends h 0x0A#8 tag p hp)

theorem exec_queryPager (ha : reqQueryPager p s.heard = a) : exec (.queryPager tag p) s = .next (State.sends 0x8B#8 tag a) :=
  ha ▸ congrArg _ (receiveFrame_sends h 0x0B#8 tag p hp)

theorem exec_queryLadder (ha : reqQueryLadder p s.heard = a) :
    exec (.queryLadder tag p) s = .next (State.sends 0x8D#8 tag a) :=
  ha ▸ congrArg _ (receiveFrame_sends h 0x0D#8 tag p hp)

end

/-! ### Layouts (R192) -/

/-- A number read from one character is written as the same one. -/
theorem enc1_toNat (k : Byte) : enc1 k.toNat = [k] := by
  rw [enc1, BitVec.ofNat_toNat, BitVec.setWidth_eq]

theorem poolReply_eq (p : Pool) : poolReply p =
    [BitVec.ofNat 8 p.crews.length] ++ p.crews.map (BitVec.ofNat 8) ++ [BitVec.ofNat 8 p.pointer] := by
  unfold poolReply
  rw [encList1_eq]
  rfl

/-- Where a pager was last heard, as QUERY_PAGER reports it, zeros where it was not (R41). -/
def locationChars : Option Location → List Byte
  | none => [0#8, 0#8, 0#8, 0#8, 0#8, 0#8]
  | some l => [1#8, BitVec.ofNat 8 l.station, BitVec.ofNat 8 l.quality] ++ enc3 l.heard.toNat

theorem pagerReply_eq (s : State) (e : PagerEntry) : s.pagerReply e =
    [BitVec.ofNat 8 e.owner] ++ (locationChars e.location ++ enc3 s.clock.toNat) := by
  unfold State.pagerReply
  cases e.location <;> rfl

/-- The kind of a step and its operand, 0 where it has none (R189). -/
def kindChars : StepKind → List Byte
  | .crew c => [0#8, BitVec.ofNat 8 c]
  | .poolOne p => [1#8, BitVec.ofNat 8 p]
  | .poolAll p => [2#8, BitVec.ofNat 8 p]
  | .refer => [3#8, 0#8]
  | .noTarget => [4#8, 0#8]

theorem encStep_eq (x : LadderStep) : encStep x = kindChars x.kind ++
    [BitVec.ofNat 8 (x.window / 256), BitVec.ofNat 8 x.window, BitVec.ofNat 8 x.repeats,
      BitVec.ofNat 8 (x.beacon.getD 0)] := by
  unfold encStep
  cases x.kind <;> rfl

theorem ladderReply_eq (n : Byte) (l : Ladder) : ladderReply n.toNat l =
    [n, BitVec.ofNat 8 (l.arrival / 256), BitVec.ofNat 8 l.arrival, BitVec.ofNat 8 l.restartLimit,
      BitVec.ofNat 8 (l.exhaustBeacon.getD 0), BitVec.ofNat 8 l.steps.length] ++
      l.steps.flatMap (fun x => kindChars x.kind ++ [BitVec.ofNat 8 (x.window / 256), BitVec.ofNat 8 x.window,
        BitVec.ofNat 8 x.repeats, BitVec.ofNat 8 (x.beacon.getD 0)]) := by
  unfold ladderReply
  rw [funext encStep_eq, enc1_toNat]
  rfl

/-! ### The queries -/

/-- A number in range is answered, and any other refused with BAD_VALUE (R40, R41, R49). -/
theorem within_cases {lo hi n : Nat} {x y : Answer} :
    (lo ≤ n → n ≤ hi → (if within lo hi n then x else y) = x) ∧
      (¬ (lo ≤ n ∧ n ≤ hi) → (if within lo hi n then x else y) = y) :=
  ⟨fun h1 h2 => if_pos ((within_iff _ _ _).mpr ⟨h1, h2⟩), fun h => if_neg (mt (within_iff _ _ _).mp h)⟩

/-- QUERY_PAGER of a number in range looks the pager up (R41). -/
theorem reqQueryPager_inRange (s : State) {hi lo : Byte} (h : 1 ≤ dec2 hi lo ∧ dec2 hi lo ≤ 4095) :
    (s.pagerEntry? (dec2 hi lo) = none → reqQueryPager [hi, lo] s = s.refuse .noSuchEntry) ∧
      ∀ e, s.pagerEntry? (dec2 hi lo) = some e → reqQueryPager [hi, lo] s = s.answer (s.pagerReply e) := by
  have looked : reqQueryPager [hi, lo] s = match s.pagerEntry? (dec2 hi lo) with
      | none => s.refuse .noSuchEntry
      | some e => s.answer (s.pagerReply e) := if_neg (by rw [(within_iff _ _ _).mpr h]; nofun)
  exact ⟨fun unlisted => by rw [looked, unlisted], fun e found => by rw [looked, found]⟩

/-- Settles O24: each query as the reply it forms, its layout piece by piece. -/
theorem registryAndLadderQueriesReport : Obligations.RegistryAndLadderQueriesReport := by
  refine ⟨fun s tag n hi lo h => ?_, fun s tag n h => ?_⟩
  · have one : [n].length ≤ 250 := Nat.le_add_left 1 249
    have two : [hi, lo].length ≤ 250 := Nat.le_add_left 2 248
    refine ⟨fun h1 h2 => ?_, fun bad => ?_, fun h1 h2 => ?_, fun bad => ?_, fun bad => ?_, fun h1 h2 unlisted => ?_,
      fun e h1 h2 found => ?_⟩
    · exact exec_queryCrew h tag _ one (within_cases.1 h1 h2)
    · exact exec_queryCrew h tag _ one (within_cases.2 bad)
    · rw [← poolReply_eq]
      exact exec_queryPool h tag _ one (within_cases.1 h1 h2)
    · exact exec_queryPool h tag _ one (within_cases.2 bad)
    · refine exec_queryPager h tag _ two (a := s.heard.refuse .badValue) (if_pos ?_)
      rw [Bool.not_eq_true', ← Bool.not_eq_true]
      exact mt (within_iff _ _ _).mp bad
    · exact exec_queryPager h tag _ two ((reqQueryPager_inRange s.heard ⟨h1, h2⟩).1 unlisted)
    · refine (exec_queryPager h tag _ two ((reqQueryPager_inRange s.heard ⟨h1, h2⟩).2 e found)).trans ?_
      rw [pagerReply_eq]
      cases e.location <;> rfl
  · have one : [n].length ≤ 250 := Nat.le_add_left 1 249
    refine ⟨fun h1 h2 => ?_, fun bad => exec_queryLadder h tag _ one (within_cases.2 bad)⟩
    refine (exec_queryLadder h tag _ one (within_cases.1 h1 h2)).trans ?_
    rw [ladderReply_eq, sends_answer]
    refine congrArg (fun steps => Host.Outcome.next (s.heard.replying 0x8D#8 tag .ok (_ ++ steps)))
      (List.flatMap_congr fun x _ => ?_)
    cases x.kind <;> rfl

end Sys2Proof.Machine
end

section
/-!
SUPPORT. What an advance makes of a call whose next step is not empty (R55, R63, R64). It settles O28.
-/

namespace Sys2Proof.Machine

/-! ### Posting -/

/-- Whatever an advance makes of a call, it posts the call (R63). -/
theorem advanceCall_posts {s : State} {n : Nat} {c : Call} (hc : s.findCall n = some c) :
    .call n ∈ (s.advanceCall n).link.notices := by
  have advancing := (State.At.refl hc).change Call.advancing fun _ => rfl
  have paging : (s.changeCall n Call.advancing).PagingAt n := fun x hx => by
    rw [Option.some.inj (hx.symm.trans advancing.found)]
    rfl
  unfold State.advanceCall Config.chainLimit
  rw [advance_succ 32 n s c hc]
  split
  · exact (engine_startStep _ n _ none _ (engine_advance 32 n) paging).frame.posted (State.changeCall_posts s n _ hc)
  · split
    · have restarted := paging.change Call.restarted (fun _ => rfl) fun _ hx => hx
      exact (engine_startStep _ n 1 none _ (engine_advance 32 n) restarted).frame.posted
        (State.changeCall_posts _ n _ advancing.found)
    · exact State.changeCall_posts _ n _ advancing.found

/-! ### The next step -/

/-- Step `j` is the one that an advance of record `c` looks at first, after `r` restarts: the step after the one the
call is in, or past the last with a restart left step 1 (R63, R64). -/
def Call.LooksAt (lad : Ladder) (c : Call) (j r : Nat) : Prop :=
  j = c.stepIndex + 1 ∧ r = c.restarts ∨
    lad.steps.length ≤ c.stepIndex ∧ c.restarts < lad.restartLimit ∧ j = 1 ∧ r = c.restarts + 1

/-- A way through the ladder does not lead past a step that is not empty. -/
theorem State.Trail.not_past {s : State} {lad : Ladder} {c : Call} {j r : Nat} {x : LadderStep}
    (looks : c.LooksAt lad j r) (hx : lad.steps[j - 1]? = some x) (hne : ¬ s.emptyStep x.kind) :
    ¬ s.Trail lad c r (j + 1) := by
  rcases looks with ⟨rfl, rfl⟩ | ⟨-, -, rfl, rfl⟩ <;> rintro (⟨hr, -, passed⟩ | ⟨hr, -, -, again, -⟩)
  · exact hne (passed _ x (Nat.le_refl _) (Nat.lt_succ_self _) hx)
  · exact Nat.lt_irrefl _ hr
  · exact Nat.succ_ne_self _ hr
  · exact hne (again 1 x (Nat.le_refl 1) (Nat.lt_succ_self 1) hx)

/-- An advance to a step that is not empty comes to a step or to exhaustion within its bound, whatever the ladder. -/
theorem advanceCall_done_of_next {s : State} {n j r : Nat} {c : Call} {x : LadderStep} (hc : s.findCall n = some c)
    (looks : c.LooksAt (s.ladder c.ladder) j r) (hx : (s.ladder c.ladder).steps[j - 1]? = some x)
    (hne : ¬ s.emptyStep x.kind) : s.Done n c (s.advanceCall n) := by
  have hj : j - 1 < (s.ladder c.ladder).steps.length := (List.getElem?_eq_some_iff.mp hx).1
  have notPast := State.Trail.not_past looks hx hne
  have start := State.Trail.start s (s.ladder c.ladder) c
  have advancing := (State.At.refl hc).change Call.advancing fun _ => rfl
  unfold State.advanceCall Config.chainLimit
  rw [advance_succ 32 n s c hc]
  rcases looks with ⟨rfl, rfl⟩ | ⟨last, left, rfl, rfl⟩
  · have hj : c.stepIndex + 1 ≤ (s.ladder c.ladder).steps.length := hj
    rw [if_pos hj]
    exact startStep_spec _ (v := (Call.advancing c).course) advancing rfl (Nat.succ_pos _) hj start
      fun _ _ _ _ past => absurd past notPast
  · have restart := start.restart (Nat.lt_succ_of_le last) left
    rw [if_neg (by omega), if_pos left]
    exact startStep_spec _ (v := (Call.restarted (Call.advancing c)).course)
      (advancing.change Call.restarted fun _ => rfl) rfl (Nat.le_refl 1) hj restart
      fun _ _ _ _ past => absurd past notPast

/-- A call in some step after an advance is in the one looked at first, where that one is not empty. -/
theorem inStep_next {s t : State} {j r : Nat} {c c' : Call} {x : LadderStep}
    (looks : c.LooksAt (s.ladder c.ladder) j r) (hx : (s.ladder c.ladder).steps[j - 1]? = some x)
    (hne : ¬ s.emptyStep x.kind) (h : s.InStep t c c') :
    Call.StepBegun s.clock (s.factor c.cls) x.window x.repeats j c c' ∧ s.Resolves t x.kind c' ∧ c'.restarts = r ∧
      c'.heldBeacon = (match x.beacon with | none => c.heldBeacon | some z => some z) := by
  obtain ⟨i, y, h1, hy, -, begun, resolves, beacon, way⟩ := h
  have hj : j - 1 < (s.ladder c.ladder).steps.length := (List.getElem?_eq_some_iff.mp hx).1
  have hi : i - 1 < (s.ladder c.ladder).steps.length := (List.getElem?_eq_some_iff.mp hy).1
  obtain ⟨rfl, restarts⟩ : i = j ∧ c'.restarts = r := by
    rcases looks with ⟨rfl, rfl⟩ | ⟨last, -, rfl, rfl⟩ <;> rcases way with ⟨e, later, passed⟩ | ⟨e, -, passed, again⟩
    · refine ⟨Nat.le_antisymm (Nat.le_of_not_lt fun past => ?_) later, e⟩
      exact hne (passed _ x (Nat.le_refl _) past hx)
    · exact absurd (passed _ x (Nat.le_refl _) (by omega) hx) hne
    · omega
    · refine ⟨Nat.le_antisymm (Nat.le_of_not_lt fun past => ?_) h1, e⟩
      exact hne (again 1 x (Nat.le_refl 1) past hx)
  obtain rfl : y = x := Option.some.inj (hy.symm.trans hx)
  exact ⟨begun, resolves, restarts, beacon⟩

/-- An advance to a step that is not empty starts that step, with its targets, its pages and its posting (R55, R63,
R64). -/
theorem advanceCall_starts {s : State} {n j r : Nat} {c : Call} {x : LadderStep} (hc : s.findCall n = some c)
    (looks : c.LooksAt (s.ladder c.ladder) j r) (hx : (s.ladder c.ladder).steps[j - 1]? = some x)
    (hne : ¬ s.emptyStep x.kind) : ∃ c', (s.advanceCall n).findCall n = some c' ∧
      Call.StepBegun s.clock (s.factor c.cls) x.window x.repeats j c c' ∧
      s.Resolves (s.advanceCall n) x.kind c' ∧ c'.restarts = r ∧
      c'.heldBeacon = (match x.beacon with | none => c.heldBeacon | some z => some z) ∧
      s.HandsOver (s.advanceCall n) n false (s.pagesFor c c'.targets) ∧
      .call n ∈ (s.advanceCall n).link.notices := by
  have hj : j - 1 < (s.ladder c.ladder).steps.length := (List.getElem?_eq_some_iff.mp hx).1
  obtain ⟨c', found, ⟨inStep, pages⟩ | ⟨-, passed, again, -⟩⟩ := advanceCall_done_of_next hc looks hx hne
  · obtain ⟨begun, resolves, restarts, beacon⟩ := inStep_next looks hx hne inStep
    rw [State.findCall_number hc] at pages
    exact ⟨c', found, begun, resolves, restarts, beacon, pages, advanceCall_posts hc⟩
  · rcases looks with ⟨rfl, -⟩ | ⟨-, left, rfl, -⟩
    · exact absurd (passed _ x (Nat.le_refl _) (by omega) hx) hne
    · exact absurd (again left 1 x (Nat.le_refl 1) (by omega) hx) hne

/-! ### The two commands that advance a PAGING call -/

/-- ADVANCE of a PAGING call (R68). -/
theorem exec_advance_paging {s : State} (h : s.TakesRequests) (tag : Byte) {hi lo : Byte} {c : Call}
    (hn : dec2 hi lo ≠ 0) (hc : s.findCall (dec2 hi lo) = some c) (hp : c.state = .paging) :
    exec (.advance tag [hi, lo]) s =
      .next ((s.heard.advanceCall (dec2 hi lo)).replying 0x8E#8 tag .ok [hi, lo]) := by
  have two : [hi, lo].length ≤ 250 := Nat.le_add_left 2 248
  refine exec_advance h tag _ two (a := (s.heard.advanceCall (dec2 hi lo)).answer [hi, lo]) ?_
  show s.heard.onOpenCall (dec2 hi lo) _ = _
  rw [onOpenCall_found (s := s.heard) _ hn hc (by rw [hp]; nofun), if_pos hp, enc2_dec2]

/-- The step deadline of a PAGING call, reached (R60). -/
theorem exec_stepDeadlineExpiry_reached {s : State} {n : Nat} {c : Call} {d : Tick} (hc : s.findCall n = some c)
    (hp : c.state = .paging) (hd : c.stepDeadline = some d) (due : (s.clock - d).toNat < 8388608) :
    exec (.stepDeadlineExpiry n) s = .next (s.advanceCall n).sendReady := by
  show execStepDeadlineExpiry n s = _
  unfold execStepDeadlineExpiry
  rw [hc]
  refine if_pos ⟨hp, ?_⟩
  rw [hd]
  exact decide_eq_true due

/-- Settles O28: both commands advance the call, and the advance starts the step it looks at first. -/
theorem advanceStartsTheNextStep : Obligations.AdvanceStartsTheNextStep := by
  intro s u i n j r c x wrap tag hi lo hc hp looks hx hne command
  rcases command with ⟨rfl, h, rfl, hn, rfl, rfl⟩ | ⟨rfl, rfl, rfl, d, hd, due⟩
  · obtain ⟨c', started⟩ := advanceCall_starts (s := s.heard) hc looks hx hne
    exact ⟨_, c', exec_advance_paging h tag hn hc hp, started⟩
  · obtain ⟨c', started⟩ := advanceCall_starts hc looks hx hne
    exact ⟨_, c', exec_stepDeadlineExpiry_reached hc hp hd due, started⟩

end Sys2Proof.Machine
end

section
/-!
SUPPORT. What SET_CREW makes of the registry (R26, R28, R29, R32 to R34): its payload, its checks, and the crew record
with its members' directory entries. It settles O22.
-/

namespace Sys2Proof.Machine

/-! ### The payload (R189) -/

theorem exec_setCrew {s : State} (h : s.TakesRequests) (tag : Byte) (p : List Byte) (hp : p.length ≤ 250) {a : Answer}
    (ha : reqSetCrew p s.heard = a) : exec (.setCrew tag p) s = .next (State.sends 0x87#8 tag a) :=
  ha ▸ congrArg _ (receiveFrame_sends h 0x07#8 tag p hp)

theorem dec2_enc2 {n : Nat} (h : n < 65536) : dec2 (BitVec.ofNat 8 (n / 256)) (BitVec.ofNat 8 n) = n := by
  unfold dec2
  rw [toNat_count (by omega), BitVec.toNat_ofNat]
  omega

theorem readPairs_flatMap {ns : List Nat} (h : ∀ n ∈ ns, n < 65536) : readPairs (ns.flatMap enc2) = ns := by
  induction ns with
  | nil => rfl
  | cons n ns ih =>
    show dec2 _ _ :: readPairs (ns.flatMap enc2) = n :: ns
    rw [dec2_enc2 (h n List.mem_cons_self), ih fun m hm => h m (List.mem_cons_of_mem _ hm)]

theorem flatMap_enc2_length (ns : List Nat) : (ns.flatMap enc2).length = 2 * ns.length := by
  rw [List.length_flatMap, show (fun n => (enc2 n).length) = fun _ => 2 from rfl, List.map_const', List.sum_replicate]
  exact Nat.mul_comm _ _

/-- The payload of a SET_CREW (R189). -/
def crewPayload (k sel d duty home : Byte) (name : Text) (members : List Nat) : List Byte :=
  [k, sel, d, duty, home, BitVec.ofNat 8 name.length] ++ name ++
    (BitVec.ofNat 8 members.length :: members.flatMap enc2)

/-- What a SET_CREW with these characters selects and gives. -/
def crewOperands (k sel d duty home : Byte) (name : Text) (members : List Nat) : CrewOperands :=
  ⟨k.toNat, sel, d.toNat, duty.toNat, home.toNat, name, members⟩

theorem readCrew_eq (k sel d duty home : Byte) {name : Text} {members : List Nat}
    (size : name.length + 2 * members.length ≤ 243) (numbers : ∀ m ∈ members, m < 65536) :
    readCrew (crewPayload k sel d duty home name members) = some (crewOperands k sel d duty home name members) := by
  have count : (BitVec.ofNat 8 name.length : Byte).toNat = name.length := toNat_count (by omega)
  have length : (members.flatMap enc2).length = 2 * (BitVec.ofNat 8 members.length : Byte).toNat := by
    rw [toNat_count (by omega), flatMap_enc2_length]
  have payload : crewPayload k sel d duty home name members = k :: sel :: d :: duty :: home ::
      BitVec.ofNat 8 name.length :: (name ++ (BitVec.ofNat 8 members.length :: members.flatMap enc2)) := rfl
  rw [payload]
  unfold readCrew
  dsimp only
  rw [count, List.take_left, List.drop_left]
  refine (if_pos length).trans ?_
  rw [readPairs_flatMap numbers]
  rfl

theorem crewPayload_length (k sel d duty home : Byte) {name : Text} {members : List Nat}
    (size : name.length + 2 * members.length ≤ 243) : (crewPayload k sel d duty home name members).length ≤ 250 := by
  simp only [crewPayload, List.length_append, List.length_cons, List.length_nil, flatMap_enc2_length]
  omega

/-! ### The checks (R32) -/

/-- A selected value of a SET_CREW is out of range, or it undefines the crew and selects another field (R32). -/
def CrewValuesBad (k sel d duty home : Byte) (members : List Nat) : Prop :=
  k.toNat = 0 ∨ 48 < k.toNat ∨ sel.getLsbD 0 = true ∧ 1 < d.toNat ∨
    sel.getLsbD 2 = true ∧ 1 < duty.toNat ∨ sel.getLsbD 4 = true ∧ (home.toNat = 0 ∨ 12 < home.toNat) ∨
    sel.getLsbD 3 = true ∧ (4 < members.length ∨ (∃ m ∈ members, m = 0 ∨ 4095 < m) ∨ ¬ members.Nodup) ∨
    sel.getLsbD 0 = true ∧ d = 0#8 ∧ (sel.getLsbD 1 = true ∨ sel.getLsbD 2 = true ∨ sel.getLsbD 3 = true ∨
      sel.getLsbD 4 = true)

theorem byte_toNat_eq_iff {d : Byte} {n : Nat} (h : n < 256) : d.toNat = n ↔ d = BitVec.ofNat 8 n := by
  rw [← BitVec.toNat_inj, toNat_count h]

theorem within_from_one_iff (hi n : Nat) : within 1 hi n = true ↔ ¬ (n = 0 ∨ hi < n) := by
  rw [within_iff]
  omega

theorem within_from_zero_iff (hi n : Nat) : within 0 hi n = true ↔ ¬ hi < n := by
  rw [within_iff]
  omega

/-- The check of the values is the one of R32. -/
theorem crewOperands_valid_iff (k sel d duty home : Byte) (name : Text) (members : List Nat) :
    (crewOperands k sel d duty home name members).valid = true ↔ ¬ CrewValuesBad k sel d duty home members := by
  have bit : ∀ i, selected sel.toNat i = sel.getLsbD i := fun _ => rfl
  have undefines : decide (d.toNat = 0) = decide (d = 0#8) := decide_eq_decide.mpr (byte_toNat_eq_iff (by decide))
  have list : (decide (members.length ≤ 4) && allWithin 1 4095 members && distinct members) = true ↔
      ¬ (4 < members.length ∨ (∃ m ∈ members, m = 0 ∨ 4095 < m) ∨ ¬ members.Nodup) := by
    simp [allWithin, distinct, Nat.one_le_iff_ne_zero, and_assoc]
  unfold CrewOperands.valid CrewValuesBad crewOperands
  dsimp only
  simp only [bit, undefines, Bool.and_eq_true, Bool.or_eq_true, Bool.not_eq_true', within_from_one_iff,
    within_from_zero_iff, ← Bool.not_eq_true, list, decide_eq_true_eq]
  simp only [not_or, not_and_or, and_assoc, or_assoc]

/-- A DEFINED that is selected, in range and not no is yes. -/
theorem defined_yes {k sel d duty home : Byte} {members : List Nat} (ok : ¬ CrewValuesBad k sel d duty home members)
    (h0 : sel.getLsbD 0 = true) (defs : ¬ (sel.getLsbD 0 = true ∧ d.toNat = 0)) : d.toNat = 1 := by
  have inRange : ¬ 1 < d.toNat := fun big => ok (.inr (.inr (.inl ⟨h0, big⟩)))
  have given : d.toNat ≠ 0 := fun e => defs ⟨h0, e⟩
  omega

/-- A pager of these is a member of another crew (R28, R32). -/
def State.MemberElsewhere (s : State) (k : Nat) (members : List Nat) : Prop :=
  ∃ m ∈ members, ∃ e, s.pagerEntry? m = some e ∧ e.owner ≠ k

theorem carriedElsewhere_iff (s : State) (k m : Nat) :
    s.carriedElsewhere k m = true ↔ ∃ e, s.pagerEntry? m = some e ∧ e.owner ≠ k := by
  unfold State.carriedElsewhere
  cases s.pagerEntry? m <;> simp

theorem memberElsewhere_iff (s : State) (k : Nat) (members : List Nat) :
    members.any (fun m => s.carriedElsewhere k m) = true ↔ s.MemberElsewhere k members := by
  simp only [List.any_eq_true, carriedElsewhere_iff, State.MemberElsewhere]

/-! ### The crew record and the directory (R26, R29, R33, R34) -/

/-- A crew record put in the place of the one that stands there changes nothing. -/
theorem replaceCrew_self (s : State) (c : Nat) : s.replaceCrew c (s.crew c) = s := if_pos rfl

theorem replaceCrew_of_ne {s : State} {c : Nat} {x : Crew} (h : x ≠ s.crew c) :
    s.replaceCrew c x = ((s.setRegistry { s.registry with
      directory := updateDirectory c (s.crew c).members x.members s.registry.directory }).putCrew c x).post (.crew c) :=
  if_neg h

/-- A crew that changes is posted (R26). -/
theorem replaceCrew_posts {s : State} {c : Nat} {x : Crew} (h : x ≠ s.crew c) :
    .crew c ∈ (s.replaceCrew c x).link.notices := by
  rw [replaceCrew_of_ne h]
  exact State.mem_post _ _

/-- A crew that changes touches the crew records, the directory and the notice list alone. -/
theorem replaceCrew_rest (s : State) (c : Nat) (x : Crew) : s.replaceCrew c x = { s with
    registry := { s.registry with
      crews := (s.replaceCrew c x).registry.crews, directory := (s.replaceCrew c x).registry.directory }
    link := { s.link with notices := (s.replaceCrew c x).link.notices } } := by
  rcases replaceCrew_eq s c x with e | e <;> rw [e]
  unfold State.post
  split <;> rfl

theorem replaceCrew_crew (s : State) {c : Nat} (hc : 1 ≤ c ∧ c ≤ 48) (x : Crew) (j : Nat) :
    (s.replaceCrew c x).crew j = if j = c then x else s.crew j := by
  by_cases h : x = s.crew c
  · subst h
    rw [replaceCrew_self]
    split
    · next e => rw [e]
    · rfl
  · rw [replaceCrew_of_ne h, State.post_crew, State.putCrew_crew_eq]
    simp only [hc, and_true]
    rfl

theorem replaceCrew_directory (s : State) (c : Nat) (x : Crew) (h : x ≠ s.crew c) :
    (s.replaceCrew c x).registry.directory =
      updateDirectory c (s.crew c).members x.members s.registry.directory := by
  rw [replaceCrew_of_ne h, State.post_registry]
  rfl

/-- The pagers of a crew that is undefined lose their entries (R34). -/
theorem replaceCrew_undefined_pagerEntry? (s : State) (c m : Nat) :
    (s.replaceCrew c .undefined).pagerEntry? m = if m ∈ (s.crew c).members then none else s.pagerEntry? m := by
  by_cases h : Crew.undefined = s.crew c
  · rw [h, replaceCrew_self, ← h]
    exact (if_neg List.not_mem_nil).symm
  · unfold State.pagerEntry?
    rw [replaceCrew_directory s c _ h]
    show (List.filter _ s.registry.directory).find? _ = _
    split
    · next left =>
      refine List.find?_eq_none.mpr fun e he => ?_
      have stays : e.pager ∉ (s.crew c).members := by simpa [Crew.undefined] using (List.mem_filter.mp he).2
      simpa using fun e' : e.pager = m => stays (e' ▸ left)
    · next stays =>
      rw [List.find?_filter]
      refine congrArg (fun p => s.registry.directory.find? p) (funext fun e => ?_)
      by_cases hm : e.pager = m <;> simp [hm, stays]

/-- The entries of the directory after a crew's members changed: its joiners', and those that stood and are not its
leavers' (R29, R33). -/
theorem mem_updateDirectory_iff {crew : Nat} {old new : List Nat} {d : List PagerEntry} {e : PagerEntry} :
    e ∈ updateDirectory crew old new d ↔
      (e = ⟨e.pager, crew, none⟩ ∧ e.pager ∈ new ∧ e.pager ∉ old) ∨ e ∈ d ∧ ¬ (e.pager ∈ old ∧ e.pager ∉ new) := by
  rw [(updateDirectory_perm crew old new d).mem_iff, List.mem_append, List.mem_map, List.mem_filter]
  refine or_congr ⟨?_, fun ⟨made, joins, apart⟩ => ⟨e.pager, ?_, made.symm⟩⟩ (by simp [imp_iff_not_or])
  · rintro ⟨p, hp, rfl⟩
    simpa using hp
  · simpa using ⟨joins, apart⟩

/-- A pager that joins a crew had no entry, since no other crew carried it (R28, R32). -/
theorem State.RegistryOk.joiner_unlisted {s : State} (hs : s.RegistryOk) {c : Nat} {x : Crew} (hx : CrewChange s c x)
    {m : Nat} (joins : m ∈ x.members) (apart : m ∉ (s.crew c).members) : s.pagerEntry? m = none := by
  rcases hx.members with same | ⟨-, free⟩
  · exact absurd (same ▸ joins) apart
  · refine Option.eq_none_iff_forall_ne_some.mpr fun e he => ?_
    have owner : e.owner = c := by
      by_contra other
      exact Bool.false_ne_true ((free m joins).symm.trans ((carriedElsewhere_iff s c m).mpr ⟨e, he, other⟩))
    exact apart (((registrySound_iff s).mpr hs).members m c |>.mp ⟨e, he, owner⟩).2.2

/-- The pager directory after a crew's members changed: joining pagers get an entry with no location, leaving ones lose
theirs, and the others keep it (R29, R33). -/
theorem replaceCrew_pagerEntry? {s : State} (hs : s.RegistryOk) {c : Nat} {x : Crew} (hx : CrewChange s c x) (m : Nat) :
    (s.replaceCrew c x).pagerEntry? m =
      if m ∈ x.members then (if m ∈ (s.crew c).members then s.pagerEntry? m else some ⟨m, c, none⟩)
      else if m ∈ (s.crew c).members then none else s.pagerEntry? m := by
  by_cases h : x = s.crew c
  · subst h
    rw [replaceCrew_self]
    split_ifs <;> rfl
  refine Option.ext fun e => ?_
  rw [pagerEntry?_eq_some_iff (hs.replaceCrew hx).entries, replaceCrew_directory s c x h, mem_updateDirectory_iff]
  have stood := pagerEntry?_eq_some_iff hs.entries m e
  by_cases new : m ∈ x.members <;> by_cases old : m ∈ (s.crew c).members
  · rw [if_pos new, if_pos old, stood]
    refine ⟨?_, fun ⟨hd, hp⟩ => ⟨.inr ⟨hd, fun left => left.2 (hp ▸ new)⟩, hp⟩⟩
    rintro ⟨⟨-, -, apart⟩ | ⟨hd, -⟩, rfl⟩
    · exact absurd old apart
    · exact ⟨hd, rfl⟩
  · rw [if_pos new, if_neg old]
    constructor
    · rintro ⟨⟨made, -⟩ | ⟨hd, -⟩, rfl⟩
      · exact congrArg some made.symm
      · exact nomatch (hs.joiner_unlisted hx new old).symm.trans (stood.mpr ⟨hd, rfl⟩)
    · rintro ⟨⟩
      exact ⟨.inl ⟨rfl, new, old⟩, rfl⟩
  · rw [if_neg new, if_pos old]
    refine ⟨?_, nofun⟩
    rintro ⟨⟨-, joins, -⟩ | ⟨-, stays⟩, rfl⟩
    · exact absurd joins new
    · exact absurd ⟨old, new⟩ stays
  · rw [if_neg new, if_neg old, stood]
    refine ⟨?_, fun ⟨hd, hp⟩ => ⟨.inr ⟨hd, fun left => old (hp ▸ left.1)⟩, hp⟩⟩
    rintro ⟨⟨-, joins, -⟩ | ⟨hd, -⟩, rfl⟩
    · exact absurd joins new
    · exact ⟨hd, rfl⟩

/-! ### The request (R32 to R34) -/

/-- SET_CREW once its payload is read and the store found idle. -/
def State.setCrew (s : State) (o : CrewOperands) : Answer :=
  let sel := fun i => selected o.selection.toNat i
  let x := s.crew o.crew
  if !o.valid then s.refuse .badValue
  else if !x.defined ∧ ¬ (sel 0 ∧ o.defined = 1) then s.refuse .noSuchEntry
  else if sel 0 ∧ o.defined = 0 then
    if x.accepted ≠ [] then s.refuse .wrongState
    else (s.replaceCrew o.crew .undefined).answer (enc1 o.crew)
  else if sel 3 ∧ o.members.any (fun m => s.carriedElsewhere o.crew m) then s.refuse .pagerInUse
  else (s.replaceCrew o.crew (o.apply x)).answer (enc1 o.crew)

theorem reqSetCrew_eq {s : State} (idle : s.store.state = .idle) (k sel d duty home : Byte) {name : Text}
    {members : List Nat} (size : name.length + 2 * members.length ≤ 243) (numbers : ∀ m ∈ members, m < 65536) :
    reqSetCrew (crewPayload k sel d duty home name members) s.heard =
      s.heard.setCrew (crewOperands k sel d duty home name members) := by
  unfold reqSetCrew
  rw [readCrew_eq k sel d duty home size numbers, State.withOperands, unlessSaving_idle idle]
  rfl

section
variable {s : State} {o : CrewOperands}

theorem setCrew_invalid (h : ¬ o.valid = true) : s.setCrew o = s.refuse .badValue :=
  if_pos (by rwa [Bool.not_eq_true', ← Bool.not_eq_true])

theorem setCrew_unknown (valid : o.valid = true) (unknown : (s.crew o.crew).defined = false)
    (silent : ¬ (selected o.selection.toNat 0 = true ∧ o.defined = 1)) : s.setCrew o = s.refuse .noSuchEntry :=
  (if_neg (by simp [valid])).trans (if_pos ⟨by simp [unknown], silent⟩)

/-- DEFINED = no undefines a crew that has no call (R34). -/
theorem setCrew_undefines (valid : o.valid = true) (known : (s.crew o.crew).defined = true)
    (undefines : selected o.selection.toNat 0 = true ∧ o.defined = 0) : s.setCrew o =
      if (s.crew o.crew).accepted ≠ [] then s.refuse .wrongState
      else (s.replaceCrew o.crew .undefined).answer (enc1 o.crew) :=
  (if_neg (by simp [valid])).trans ((if_neg (by simp [known])).trans (if_pos undefines))

/-- Any other SET_CREW takes the values it selects, unless another crew carries a selected member (R32, R33). -/
theorem setCrew_defines (valid : o.valid = true)
    (known : (s.crew o.crew).defined = true ∨ selected o.selection.toNat 0 = true ∧ o.defined = 1)
    (defines : ¬ (selected o.selection.toNat 0 = true ∧ o.defined = 0)) : s.setCrew o =
      if selected o.selection.toNat 3 = true ∧ o.members.any (fun m => s.carriedElsewhere o.crew m) = true then
        s.refuse .pagerInUse
      else (s.replaceCrew o.crew (o.apply (s.crew o.crew))).answer (enc1 o.crew) := by
  refine (if_neg (by simp [valid])).trans ((if_neg ?_).trans (if_neg defines))
  rintro ⟨unknown, silent⟩
  rcases known with known | given
  · simp [known] at unknown
  · exact silent given

end

/-- The selected fields take the given values, and the others stay (R33). -/
theorem crewOperands_apply (k sel d duty home : Byte) (name : Text) (members : List Nat) (x : Crew) :
    (crewOperands k sel d duty home name members).apply x = { x with
      defined := true
      name := if sel.getLsbD 1 then
        (name.take 12).map (fun z => if 0x20 ≤ z.toNat ∧ z.toNat ≤ 0x7E then z else 0x3F#8) else x.name
      duty := if sel.getLsbD 2 then (if duty = 0#8 then .offDuty else .onDuty) else x.duty
      members := if sel.getLsbD 3 then members else x.members
      home := if sel.getLsbD 4 then home.toNat else x.home } := by
  have off : duty.toNat = 0 ↔ duty = 0#8 := byte_toNat_eq_iff (by decide)
  simp only [CrewOperands.apply, crewOperands, off]
  rfl

/-- Settles O22: the checks in their order, and the crew record and the directory that the request leaves. -/
theorem setCrewChangesTheRegistry : Obligations.SetCrewChangesTheRegistry := by
  intro s tag k sel d duty home name members bad x h idle size numbers hx hbad outcome refused frame undefines elsewhere
  subst hx
  have served : ∀ {a : Answer}, s.heard.setCrew (crewOperands k sel d duty home name members) = a →
      outcome = .next (State.sends 0x87#8 tag a) := fun ha =>
    exec_setCrew h tag _ (crewPayload_length k sel d duty home size)
      ((reqSetCrew_eq idle k sel d duty home size numbers).trans ha)
  have valid : ¬ bad → (crewOperands k sel d duty home name members).valid = true := fun ok =>
    (crewOperands_valid_iff k sel d duty home name members).mpr (mt hbad.mpr ok)
  have number : ¬ bad → 1 ≤ k.toNat ∧ k.toNat ≤ 48 := fun ok => by
    have := mt hbad.mpr ok
    omega
  have zero : d.toNat = 0 ↔ d = 0#8 := byte_toNat_eq_iff (by decide)
  have one : d.toNat = 1 ↔ d = 1#8 := byte_toNat_eq_iff (by decide)
  have undefining : undefines ↔ sel.getLsbD 0 = true ∧ d.toNat = 0 := and_congr_right fun _ => zero.symm
  have defining : ¬ bad → (s.crew k.toNat).defined = true ∨ sel.getLsbD 0 = true → ¬ undefines →
      (s.crew k.toNat).defined = true ∨ sel.getLsbD 0 = true ∧ d.toNat = 1 := fun ok known defs =>
    known.imp_right fun h0 => ⟨h0, defined_yes (mt hbad.mpr ok) h0 (mt undefining.mpr defs)⟩
  have elsewhere_iff : elsewhere ↔
      sel.getLsbD 3 = true ∧ members.any (fun m => s.heard.carriedElsewhere k.toNat m) = true :=
    and_congr_right fun _ => (memberElsewhere_iff s.heard k.toNat members).symm
  have framed : ∀ y, frame (s.heard.replaceCrew k.toNat y) := replaceCrew_rest s.heard k.toNat
  refine ⟨fun hb => ?_, fun ok unknown silent => ?_, fun ok known undef busy => ?_, fun ok known undef free => ?_,
    fun ok known defs away => ?_, fun ok known defs here sound => ?_⟩
  · exact served (setCrew_invalid fun hv => (crewOperands_valid_iff k sel d duty home name members).mp hv (hbad.mp hb))
  · exact served (setCrew_unknown (valid ok) unknown fun ⟨h0, h1⟩ => silent ⟨h0, one.mp h1⟩)
  · exact served ((setCrew_undefines (s := s.heard) (valid ok) known (undefining.mp undef)).trans (if_pos busy))
  · have answered := served ((setCrew_undefines (s := s.heard) (valid ok) known (undefining.mp undef)).trans
      (if_neg (not_not.mpr free)))
    refine ⟨s.heard.replaceCrew k.toNat .undefined, enc1_toNat k ▸ answered, ?_, fun j hj => ?_,
      replaceCrew_undefined_pagerEntry? s.heard k.toNat, replaceCrew_posts fun e => ?_, framed _⟩
    · exact (replaceCrew_crew s.heard (number ok) _ _).trans (if_pos rfl)
    · exact (replaceCrew_crew s.heard (number ok) _ _).trans (if_neg hj)
    · exact Bool.false_ne_true ((congrArg Crew.defined e).trans known)
  · exact served ((setCrew_defines (s := s.heard) (valid ok) (defining ok known defs) (mt undefining.mpr defs)).trans
      (if_pos (elsewhere_iff.mp away)))
  · have answered := served ((setCrew_defines (s := s.heard) (valid ok) (defining ok known defs)
      (mt undefining.mpr defs)).trans (if_neg (mt elsewhere_iff.mpr here)))
    have change := crewChange_apply s.heard _ (valid ok) (mt elsewhere_iff.mpr here)
    have registryOk : s.heard.RegistryOk := ((registrySound_iff s).mp sound).of_registry rfl
    refine ⟨_, _, enc1_toNat k ▸ answered, ?_, (replaceCrew_crew s.heard (number ok) _ _).trans (if_pos rfl),
      fun j hj => (replaceCrew_crew s.heard (number ok) _ _).trans (if_neg hj),
      replaceCrew_pagerEntry? registryOk change, replaceCrew_posts (s := s.heard), fun e => ?_, framed _⟩
    · exact crewOperands_apply k sel d duty home name members _
    · exact (congrArg (s.heard.replaceCrew k.toNat) e).trans (replaceCrew_self s.heard k.toNat)

end Sys2Proof.Machine
end

section
/-!
SUPPORT. The arithmetic of windows and repeats (R56, R57), and deadlines that are not reached (R44). It settles O14 and
O27.
-/

namespace Sys2Proof.Machine

/-! ### Windows and repeats (R56, R57) -/

/-- `k` repeats leave at least 24 ticks between sends exactly while `k + 1` sends of 24 ticks fit (R57). -/
theorem gap_iff (w k : Nat) : 24 ≤ w / (k + 1) ↔ k + 1 ≤ w / 24 := by
  rw [Nat.le_div_iff_mul_le (Nat.succ_pos k), Nat.le_div_iff_mul_le (by omega), Nat.mul_comm]

/-- The effective repeats are the most, up to those asked for, that fit (R57). -/
theorem effectiveRepeats_eq (w r : Nat) : effectiveRepeats w r = min r (w / 24 - 1) := by
  unfold effectiveRepeats
  split
  · next h =>
    have := (gap_iff w r).mp h
    omega
  · rfl

/-- The sends before the last interval of a window leave some of it (R57). -/
theorem mul_div_succ_lt {w : Nat} (h : 0 < w) (k : Nat) : k * (w / (k + 1)) < w := by
  rcases Nat.eq_zero_or_pos (w / (k + 1)) with e | e
  · rw [e]
    exact h
  · calc k * (w / (k + 1)) < (k + 1) * (w / (k + 1)) := Nat.mul_lt_mul_of_pos_right (Nat.lt_succ_self k) e
      _ ≤ w := Nat.mul_div_le w (k + 1)

/-- Settles O27: what is left is arithmetic on the most repeats that fit. -/
theorem repeatsFitTheWindow : Obligations.RepeatsFitTheWindow := by
  intro base factor r w k
  have window : w = max 40 (min 14400 (base * factor)) := windowTicks_eq base factor
  have most : k = min r (w / 24 - 1) := effectiveRepeats_eq w r
  refine ⟨window, most ▸ Nat.min_le_left _ _, rfl, fun h => (gap_iff w k).mpr ?_, fun j hk hj => ?_,
    mul_div_succ_lt (by omega) k⟩
  · omega
  · rw [← Nat.not_le, gap_iff]
    omega

/-! ### Deadlines that are not reached (R44) -/

/-- A deadline is due exactly when it is armed and reached (R44). -/
theorem dueAt_iff (now : Tick) (t : Option Tick) : dueAt now t = true ↔ ∃ d, t = some d ∧ (now - d).toNat < 8388608 := by
  cases t with
  | none => exact ⟨nofun, nofun⟩
  | some d => exact decide_eq_true_iff.trans ⟨fun h => ⟨d, rfl, h⟩, fun ⟨_, e, h⟩ => Option.some.inj e ▸ h⟩

/-- A deadline that is not reached where it is armed is not due (R44). -/
theorem not_dueAt {now : Tick} {t : Option Tick} (early : ∀ d, t = some d → 8388608 ≤ (now - d).toNat) :
    ¬ dueAt now t = true := by
  rw [dueAt_iff]
  rintro ⟨d, hd, due⟩
  exact absurd due (Nat.not_lt.mpr (early d hd))

/-- Settles O14: each of the six expiries checks that its deadline is due. -/
theorem nothingExpiresEarly : Obligations.NothingExpiresEarly := by
  intro s n
  refine ⟨fun early => ?_, fun early => ?_, fun early => ?_, fun early => ?_, fun early => ?_, fun early => ?_⟩
  · show execRepeatExpiry n s = _
    unfold execRepeatExpiry
    split
    · rfl
    · next c hc => exact if_neg fun h => not_dueAt (fun d => early c d hc) h.2
  · show execStepDeadlineExpiry n s = _
    unfold execStepDeadlineExpiry
    split
    · rfl
    · next c hc => exact if_neg fun h => not_dueAt (fun d => early c d hc) h.2
  · show execArrivalExpiry n s = _
    unfold execArrivalExpiry
    split
    · rfl
    · next c hc => exact if_neg fun h => not_dueAt (fun d => early c d hc) h.2
  · exact if_neg fun h => not_dueAt early h.2
  · show execPollDue n s = _
    unfold execPollDue
    exact if_neg fun h => not_dueAt early h
  · exact if_neg fun h => not_dueAt early h.2

end Sys2Proof.Machine
end

section
/-!
SUPPORT. What advances, repeats and directed steps make of a call, as the commands give them (R54, R55, R59, R60, R63 to
R65, R68, R70, R71). It settles O29, O30 and O31.
-/

namespace Sys2Proof.Machine

/-! ### Posting and clamping -/

/-- A record posted stands on the notice list (R170). -/
theorem post_eq_withNotice (s : State) (k : NoticeKey) : s.post k = s.withNotice k := by
  unfold State.post State.withNotice
  simp only [List.contains_eq_mem, decide_eq_true_eq]
  split <;> rfl

theorem clamp_eq_max_min {lo hi : Nat} (h : lo ≤ hi) (x : Nat) : clamp lo hi x = max lo (min hi x) := by
  unfold clamp
  split
  · omega
  · split <;> omega

/-! ### What is left alone from the command to the end of the advance -/

/-- In going from `s` to `t` nothing but call `n`, force-wide flags, pool pointers, beacons, queues, grants and notices
changed, the crews and the link standing as in `u`. -/
structure State.Escalates (s u t : State) (n : Nat) : Prop where
  others : ∀ m, m ≠ n → (t.findCall m).map Call.core = (s.findCall m).map Call.core
  clock : t.clock = s.clock
  ladders : t.ladders = s.ladders
  acks : t.acks = s.acks
  store : t.store = s.store
  crews : t.registry.crews = u.registry.crews
  directory : t.registry.directory = s.registry.directory
  pools : ∀ k, (t.pool k).crews = (s.pool k).crews
  link : t.link = { u.link with notices := t.link.notices }
  line : t.line = { s.line with burstWaits := t.line.burstWaits }
  book : t.book = { s.book with calls := t.book.calls }

theorem State.Escalates.engine {s u v t : State} {n : Nat} (h : s.Escalates u v n) (e : Engine (onlyCall n) v t) :
    s.Escalates u t n where
  others m hm := (e.frame.others m hm).trans (h.others m hm)
  clock := e.frame.clock.trans h.clock
  ladders := e.frame.ladders.trans h.ladders
  acks := e.frame.acks.trans h.acks
  store := e.frame.store.trans h.store
  crews := e.frame.crews.trans h.crews
  directory := e.frame.directory.trans h.directory
  pools k := (e.frame.poolLists k).trans (h.pools k)
  link := by rw [e.frame.link, h.link]
  line := by rw [e.frame.line, h.line]
  book := by rw [e.frame.book, h.book]

theorem State.Escalates.refl (s : State) (n : Nat) : s.Escalates s s n :=
  ⟨fun _ _ => rfl, rfl, rfl, rfl, rfl, rfl, rfl, fun _ => rfl, rfl, rfl, rfl⟩

theorem escalates_heard (s : State) (n : Nat) : s.Escalates s.heard s.heard n :=
  ⟨fun _ _ => rfl, rfl, rfl, rfl, rfl, rfl, rfl, fun _ => rfl, rfl, rfl, rfl⟩

/-! ### The release of the crew that did not arrive (R71) -/

/-- The state in which crew `a` has given up call `n` and is posted (R31, R71). -/
def State.givenUpBy (s : State) (n a : Nat) : State :=
  State.withNotice (s.putCrew a { s.crew a with accepted := (s.crew a).accepted.filter (fun m => decide (m ≠ n)) })
    (.crew a)

theorem releaseCrew_accepting (s : State) {c : Call} {a : Nat} (ha : c.accepting = some a) :
    s.releaseCrew c = (s.changeCall c.number Call.released).givenUpBy c.number a := by
  rw [releaseCrew_eq, ha]
  exact post_eq_withNotice _ _

theorem givenUpBy_registry {s t : State} (h : t.registry = s.registry) (n a : Nat) :
    (t.givenUpBy n a).registry = (s.givenUpBy n a).registry := by
  show Registry.mk (setRow t.registry.crews a { t.crew a with accepted := _ }) t.registry.pools t.registry.directory =
    Registry.mk (setRow s.registry.crews a { s.crew a with accepted := _ }) s.registry.pools s.registry.directory
  rw [crew_of_registry h, h]

/-- The released call, in the surroundings in which its crew has given it up. -/
theorem at_releaseCrew {s : State} {c : Call} (hc : s.findCall c.number = some c) {a : Nat}
    (ha : c.accepting = some a) : (s.givenUpBy c.number a).At (s.releaseCrew c) c.number c.released := by
  have h := (State.At.refl hc).change Call.released fun _ => rfl
  rw [releaseCrew_accepting s ha]
  exact ⟨h.found, givenUpBy_registry h.registry _ _, h.clock, h.ladders, h.store, h.sched, h.line, h.state⟩

theorem escalates_releaseCrew (s : State) {c : Call} {a : Nat} (ha : c.accepting = some a) :
    s.Escalates (s.givenUpBy c.number a) (s.releaseCrew c) c.number := by
  rw [releaseCrew_accepting s ha]
  have registry := State.changeCall_registry s c.number Call.released
  exact {
    others := fun m hm => congrArg _ (changeCall_findCall_ne s hm Call.released fun _ => rfl)
    clock := State.changeCall_clock _ _ _
    ladders := State.changeCall_ladders _ _ _
    acks := State.changeCall_acks _ _ _
    store := State.changeCall_store _ _ _
    crews := congrArg Registry.crews (givenUpBy_registry registry _ _)
    directory := (congrArg Registry.directory registry :)
    pools := fun k => congrArg Pool.crews (pool_of_registry registry k)
    link := (congrArg (fun l : Link => { l with notices :=
      ((s.changeCall c.number Call.released).givenUpBy c.number a).link.notices }) (changeCall_link _ _ _) :)
    line := by
      have line := State.changeCall_line s c.number Call.released
      exact line.trans (congrArg (fun l : Line => { s.line with burstWaits := l.burstWaits }) line.symm)
    book := changeCall_book _ _ _ }

/-! ### The three commands that advance a call -/

/-- An advance in a state that escalation may have come to brings the call to a step or to exhaustion (R63). -/
theorem advanceCall_escalates {s u v : State} {n : Nat} {c : Call} (hl : (u.ladder c.ladder).inRange = true)
    (h : u.At v n c) (hp : c.state = .paging) (e : s.Escalates u v n) :
    u.Done n c (v.advanceCall n) ∧ .call n ∈ (v.advanceCall n).link.notices ∧
      (∀ k ∈ v.link.notices, k ∈ (v.advanceCall n).link.notices) ∧ s.Escalates u (v.advanceCall n) n := by
  have engine := engine_advanceCall v n (State.pagingAt_of_found h.found hp)
  exact ⟨advanceCall_done hl h, advanceCall_posts h.found, fun _ => engine.frame.posted, e.engine engine⟩

/-- The arrival deadline of an ACCEPTED call, reached (R71). -/
theorem exec_arrivalExpiry_reached {s : State} {n : Nat} {c : Call} {d : Tick} (hc : s.findCall n = some c)
    (ha : c.state = .accepted) (hd : c.arrivalDeadline = some d) (due : (s.clock - d).toNat < 8388608) :
    exec (.arrivalExpiry n) s = .next ((s.releaseCrew c).advanceCall n).sendReady := by
  show execArrivalExpiry n s = _
  unfold execArrivalExpiry
  rw [hc]
  exact if_pos ⟨ha, (dueAt_iff _ _).mpr ⟨d, hd, due⟩⟩

/-- Settles O29: each command is an advance, from the state it found or from the one in which the crew is released. -/
theorem advancesEndInAStepOrExhaustion : Obligations.AdvancesEndInAStepOrExhaustion := by
  intro s u i n c c0 wrap tag hi lo hc hl command
  rcases command with ⟨rfl, h, rfl, hn, hp, rfl, rfl, rfl⟩ | ⟨rfl, hp, rfl, rfl, rfl, d, hd, due⟩ |
    ⟨rfl, ha, rfl, ⟨d, hd, due⟩, rfl, a, hacc, rfl⟩
  · obtain ⟨⟨c', found, advances⟩, posted, -, e⟩ :=
      advanceCall_escalates (u := s.heard) hl (.refl hc) hp (escalates_heard s _)
    exact ⟨_, c', exec_advance_paging h tag hn hc hp, found, advances, posted, fun _ ha => (nomatch hp.symm.trans ha),
      e.others, e.clock, e.ladders, e.acks, e.store, e.crews, e.directory, e.pools, e.link, e.line, e.book⟩
  · obtain ⟨⟨c', found, advances⟩, posted, -, e⟩ := advanceCall_escalates hl (.refl hc) hp (.refl _ n)
    exact ⟨_, c', exec_stepDeadlineExpiry_reached hc hp hd due, found, advances, posted,
      fun _ ha => (nomatch hp.symm.trans ha),
      e.others, e.clock, e.ladders, e.acks, e.store, e.crews, e.directory, e.pools, e.link, e.line, e.book⟩
  · obtain rfl := State.findCall_number hc
    have crewPosted : .crew a ∈ (s.releaseCrew c).link.notices := by
      rw [releaseCrew_eq, hacc]
      exact State.mem_post _ _
    obtain ⟨⟨c', found, advances⟩, posted, kept, e⟩ :=
      advanceCall_escalates (u := s.givenUpBy c.number a) (c := c.released) hl (at_releaseCrew hc hacc) rfl (escalates_releaseCrew s hacc)
    refine ⟨_, c', exec_arrivalExpiry_reached hc ha hd due, found, advances, posted, fun b _ hb => ?_,
      e.others, e.clock, e.ladders, e.acks, e.store, e.crews, e.directory, e.pools, e.link, e.line, e.book⟩
    obtain rfl := Option.some.inj (hacc.symm.trans hb)
    exact kept _ crewPosted

/-! ### Repeats (R59) -/

/-- A repeat hands a REPAGE item over for every member of every undeclined target, and is counted (R59). -/
theorem sendRepeat_eq (s : State) (c : Call) : s.sendRepeat c =
    (forEach (c.undeclined.flatMap fun k => (s.crew k).members.map (pageItem .repage c.attempts c)) State.produce
      s).changeCall c.number (Call.repeated c.attempts) := by
  rw [← sendToCrews_eq]
  rfl

/-- Settles O30: the items go out first, and leave of the call all but its force-wide flag. -/
theorem repeatsGoToTheUndeclinedTargets : Obligations.RepeatsGoToTheUndeclinedTargets := by
  intro s n c d hc hp hd due
  obtain rfl := State.findCall_number hc
  have engine := engine_sendRepeat s c (State.pagingAt_of_found hc hp)
  have executes : exec (.repeatExpiry c.number) s = .next (s.sendRepeat c).sendReady := by
    show execRepeatExpiry c.number s = _
    unfold execRepeatExpiry
    rw [hc]
    exact if_pos ⟨hp, (dueAt_iff _ _).mpr ⟨d, hd, due⟩⟩
  have sent : Engine noCall s (forEach (c.undeclined.flatMap fun k =>
      (s.crew k).members.map (pageItem .repage c.attempts c)) State.produce s) :=
    Engine.forEach _ _ (fun i _ s => engine_produce i s) s
  obtain ⟨x, hx, core⟩ := sent.frame.found id hc
  refine ⟨s.sendRepeat c, Call.repeated c.attempts x, executes, ?_, ?_, ?_, ?_, engine.frame⟩
  · rw [sendRepeat_eq, State.changeCall_findCall _ _ _ (Call.repeated c.attempts) fun _ => rfl, hx]
    exact congrArg some (if_pos rfl)
  · exact (congrArg (fun y => (Call.repeated c.attempts y).core) core :)
  · rw [sendRepeat_eq]
    exact State.changeCall_posts _ _ _ hx
  · rw [sendRepeat_eq, State.changeCall_sched]
    rfl

/-! ### Directed steps (R70) -/

/-- The record of a directed step, its bookkeeping written and its one crew paged (R51, R55 to R57, R70). -/
theorem stepBegun_redirected (now : Tick) (f : Cls → Nat) (i b r k : Nat) (wide : Bool) (c : Call) :
    Call.StepBegun now (f c.cls) b r i c ((Call.redirected now f i b r c).completed [k] none wide) where
  same := ⟨rfl, rfl, rfl, rfl, rfl, rfl, rfl, rfl⟩
  state := rfl
  reason := rfl
  index := rfl
  start := rfl
  window := windowTicks_eq b (f c.cls)
  interval := rfl
  repeats := rfl
  deadline := rfl
  repeatTick := rfl
  attempts := rfl
  declined := rfl
  paged := rfl
  accepting := rfl
  arrival := rfl
  ticks := ⟨rfl, rfl, rfl⟩
  presses := rfl

/-- DIRECT to a defined crew, of a call that no crew has taken (R69, R70). -/
theorem exec_direct_waiting {s : State} (h : s.TakesRequests) (tag : Byte) {hi lo k : Byte} (whi wlo r : Byte)
    {c : Call} (hn : dec2 hi lo ≠ 0) (hc : s.findCall (dec2 hi lo) = some c)
    (hs : c.state = .paging ∨ c.state = .exhausted) (k1 : 1 ≤ k.toNat) (k2 : k.toNat ≤ 48)
    (hk : (s.crew k.toNat).defined = true) :
    exec (.direct tag [hi, lo, k, whi, wlo, r]) s = .next ((s.heard.directStep (dec2 hi lo) k.toNat
      (max 5 (min 900 (dec2 whi wlo))) (min 7 r.toNat)).replying 0x8F#8 tag .ok [hi, lo]) := by
  have six : [hi, lo, k, whi, wlo, r].length ≤ 250 := Nat.le_add_left 6 244
  have opened : c.state ≠ .closed := by rcases hs with e | e <;> rw [e] <;> nofun
  have untaken : ¬ (c.state = .accepted ∨ c.state = .onScene) := by rcases hs with e | e <;> rw [e] <;> nofun
  refine exec_direct h tag _ six (a := (s.heard.directStep (dec2 hi lo) k.toNat (max 5 (min 900 (dec2 whi wlo)))
    (min 7 r.toNat)).answer [hi, lo]) ((onOpenCall_found (s := s.heard) _ hn hc opened).trans ?_)
  dsimp only
  rw [(within_iff 1 48 k.toNat).mpr ⟨k1, k2⟩, State.heard_crew, hk, if_neg untaken, enc2_dec2,
    clamp_eq_max_min (by decide), clamp_eq_max_min (by decide), Nat.max_eq_right (Nat.zero_le _)]
  rfl

/-- Settles O31: the bookkeeping of a directed step, and the pages of its crew. -/
theorem directStartsADirectedStep : Obligations.DirectStartsADirectedStep := by
  intro s tag hi lo k whi wlo r n c h hn' hn hc hs k1 k2 hk
  obtain rfl : n = dec2 hi lo := hn'
  have engine := engine_directStep s.heard _ k.toNat (max 5 (min 900 (dec2 whi wlo))) (min 7 r.toNat) c hc hs
  have step := directStep_eq s.heard _ k.toNat (max 5 (min 900 (dec2 whi wlo))) (min 7 r.toNat) c hc
  have begun := (State.At.refl (s := s.heard) hc).change (Call.redirected s.heard.clock s.heard.factor
    (if c.state = .exhausted then (s.heard.ladder c.ladder).steps.length else c.stepIndex)
    (max 5 (min 900 (dec2 whi wlo))) (min 7 r.toNat)) fun _ => rfl
  obtain ⟨wide, found, -, pages⟩ := completeStep_spec begun rfl [k.toNat] none
  have posted := (engine_completeStep _ _ [k.toNat] none (State.pagingAt_of_found begun.found rfl)
    (fun x hx => by rw [Option.some.inj (hx.symm.trans begun.found)]; rfl)
    (fun _ => ⟨Nat.le_add_left 1 7, List.nodup_singleton _⟩)).frame.posted (State.changeCall_posts s.heard _ _ hc)
  rw [← step] at found pages posted
  exact ⟨_, _, exec_direct_waiting h tag whi wlo r hn hc hs k1 k2 hk, found,
    stepBegun_redirected _ s.factor _ _ _ _ wide c, rfl, rfl, rfl, rfl, rfl, pages, rfl, posted, engine.frame⟩

end Sys2Proof.Machine
end

section
/-!
SUPPORT. What declines and acceptances make of a call and of the crews it paged (R61, R62, R80 to R86). It settles O36
and O38.
-/

namespace Sys2Proof.Machine

/-! ### The replacement of a decline (R61) -/

/-- A choice of one crew moves at most the pointer of its pool (R37). -/
theorem chooseOne_state (s : State) (p : Nat) (targets declined : List Nat) :
    (s.chooseOne p targets declined).2 = s ∨ ∃ x, (s.chooseOne p targets declined).2 = s.putPool p x := by
  unfold State.chooseOne
  split
  · exact .inl rfl
  · exact .inr ⟨_, rfl⟩

/-- A crew chosen is none of the targets (R36). -/
theorem chooseOne_not_target {s t : State} {p x : Nat} {targets declined : List Nat}
    (h : s.chooseOne p targets declined = (some x, t)) : x ∉ targets := by
  unfold State.chooseOne at h
  split at h
  · cases h
  · next y hy =>
    obtain rfl : y.2 = x := Option.some.inj (congrArg Prod.fst h)
    obtain ⟨-, -, -, fresh, -⟩ := (eligible_iff s targets declined y.2).mp (List.find?_some hy :)
    exact fresh

/-- With no step pool, 8 targets or no eligible crew none is chosen, and nothing moves (R61). -/
theorem replacement_none {s : State} {c : Call} (h : c.stepPool = none ∨ 8 ≤ c.targets.length ∨
    ∃ p, c.stepPool = some p ∧ (s.chooseOne p c.targets c.declined).1 = none) : s.replacement c = (none, s) := by
  unfold State.replacement
  cases hp : c.stepPool with
  | none => rfl
  | some p =>
    dsimp only
    split
    · next room =>
      rcases h with h | h | ⟨q, hq, none'⟩
      · cases hp.symm.trans h
      · exact absurd room (Nat.not_lt.mpr h)
      · obtain rfl := Option.some.inj (hp.symm.trans hq)
        exact chooseOne_none none'
    · rfl

/-- With room for another target the replacement is the choice from the step pool (R61). -/
theorem replacement_pool (s : State) {c : Call} {p : Nat} (hp : c.stepPool = some p) (room : c.targets.length < 8) :
    s.replacement c = s.chooseOne p c.targets c.declined := by
  unfold State.replacement
  rw [hp]
  exact if_pos room

/-! ### What a decline makes of its call (R61, R62, R85) -/

/-- A decline that is noted only (R85). -/
theorem ackDecline_noted (s : State) {c : Call} {crew : Nat} (h : c.state ≠ .paging ∨ crew ∉ c.targets) :
    s.ackDecline c crew = s := by
  refine if_neg ?_
  rintro ⟨paging, target⟩
  rw [List.contains_iff_mem] at target
  exact h.elim (absurd paging) (absurd target)

theorem declinedBy_undeclined_iff (c : Call) (crew : Nat) :
    (c.declinedBy crew).undeclined = [] ↔ ∀ k ∈ c.targets, k = crew ∨ k ∈ c.declined := by
  unfold Call.undeclined Call.declinedBy
  rw [List.filter_eq_nil_iff]
  refine forall₂_congr fun k _ => ?_
  simp
  tauto

section
variable {s : State} {c : Call} {crew : Nat} (hc : s.findCall c.number = some c) (hp : c.state = .paging)
  (target : crew ∈ c.targets)
include hc hp target

/-- A crew that has declined already declines to no effect (R61). -/
theorem ackDecline_again (again : crew ∈ c.declined) : s.ackDecline c crew = s := by
  refine (if_pos ⟨hp, List.contains_iff_mem.mpr target⟩).trans ?_
  rw [engineDecline_eq s _ crew c hc]
  exact if_pos (List.contains_iff_mem.mpr again)

/-- A first decline joins the declined set, and what follows depends on the replacement (R61, R62). -/
theorem ackDecline_first (first : crew ∉ c.declined) : s.ackDecline c crew =
    State.afterDecline c.number (c.declinedBy crew)
      ((s.changeCall c.number (Call.declinedBy crew)).replacement (c.declinedBy crew)) := by
  refine (if_pos ⟨hp, List.contains_iff_mem.mpr target⟩).trans ?_
  rw [engineDecline_eq s _ crew c hc]
  exact if_neg (mt List.contains_iff_mem.mp first)

theorem ackDecline_frame : EngineFrame (onlyCall c.number) s (s.ackDecline c crew) := by
  rw [State.ackDecline, if_pos ⟨hp, List.contains_iff_mem.mpr target⟩]
  exact (engine_engineDecline s c.number crew c hc hp target).frame

omit hp target in
/-- The call with the decline in its record, in its surroundings. -/
theorem at_declinedBy : s.At (s.changeCall c.number (Call.declinedBy crew)) c.number (c.declinedBy crew) :=
  (State.At.refl hc).change (Call.declinedBy crew) fun _ => rfl

/-- With none chosen the call stays while a target is left, and else advances (R61, R62). -/
theorem ackDecline_unreplaced (first : crew ∉ c.declined) (unreplaced : c.stepPool = none ∨ 8 ≤ c.targets.length ∨
      ∃ p, c.stepPool = some p ∧ (s.chooseOne p c.targets (c.declined ++ [crew])).1 = none) :
    s.ackDecline c crew = if ∀ k ∈ c.targets, k = crew ∨ k ∈ c.declined then
      (s.changeCall c.number (Call.declinedBy crew)).advanceCall c.number
      else s.changeCall c.number (Call.declinedBy crew) := by
  have chosen := fun p => ((at_declinedBy (crew := crew) hc).chooseOne p c.targets (c.declined ++ [crew])).1
  have replacement := replacement_none (s := s.changeCall c.number (Call.declinedBy crew)) (c := c.declinedBy crew) <|
    unreplaced.imp_right (Or.imp_right fun ⟨p, hp, none'⟩ => ⟨p, hp, (chosen p).trans none'⟩)
  rw [ackDecline_first hc hp target first, replacement]
  exact ite_congr (propext (declinedBy_undeclined_iff c crew)) (fun _ => rfl) fun _ => rfl

/-- A replacement joins the step, and then its pagers are paged (R61). -/
theorem ackDecline_replaced_eq (first : crew ∉ c.declined) {p x : Nat} {t : State} (pool : c.stepPool = some p)
    (room : c.targets.length < 8) (chosen : s.chooseOne p c.targets (c.declined ++ [crew]) = (some x, t)) :
    ∃ v, t.At v c.number (Call.joinedBy x (c.declinedBy crew)) ∧ .call c.number ∈ v.link.notices ∧
      s.ackDecline c crew = forEach (s.pagesFor c [x]) State.produce v := by
  obtain ⟨same, choice⟩ := (at_declinedBy (crew := crew) hc).chooseOne p c.targets (c.declined ++ [crew])
  have replacement : State.replacement _ (c.declinedBy crew) = State.chooseOne _ p c.targets (c.declined ++ [crew]) :=
    replacement_pool (s.changeCall c.number (Call.declinedBy crew)) (c := c.declinedBy crew) pool room
  have crews : ∀ k, t.crew k = s.crew k := fun k => by
    rw [← (engine_chooseOne (own := noCall) s p c.targets (c.declined ++ [crew])).frame.crew k, chosen]
  rw [chosen] at same choice
  have joined := choice.change (Call.joinedBy x) fun _ => rfl
  refine ⟨_, joined, State.changeCall_posts _ _ _ choice.found, ?_⟩
  rw [ackDecline_first hc hp target first, replacement, State.afterDecline, same]
  dsimp only
  rw [sendToCrews_eq]
  simp only [crew_of_registry joined.registry, crews]
  rfl

/-- A replacement joins the step targets and the paged set, and its pagers are paged (R61). -/
theorem ackDecline_replaced (first : crew ∉ c.declined) {p x : Nat} {t : State} (pool : c.stepPool = some p)
    (room : c.targets.length < 8) (chosen : s.chooseOne p c.targets (c.declined ++ [crew]) = (some x, t)) :
    ∃ c', (s.ackDecline c crew).findCall c.number = some c' ∧
      c'.core = { c with
        declined := c.declined ++ [crew]
        targets := c.targets ++ [x]
        paged := addToSet c.paged x }.core ∧
      .call c.number ∈ (s.ackDecline c crew).link.notices ∧
      s.HandsOver (s.ackDecline c crew) c.number c.forceWide (s.pagesFor c [x]) ∧
      (s.ackDecline c crew).registry = t.registry := by
  obtain ⟨v, joined, posted, pages⟩ := ackDecline_replaced_eq hc hp target first pool room chosen
  have frame : EngineFrame noCall v (s.ackDecline c crew) :=
    pages ▸ (Engine.forEach _ _ (fun i _ s => engine_produce i s) v).frame
  obtain ⟨c', found, core⟩ := frame.found id joined.found
  have targets : addToSet c.targets x = c.targets ++ [x] :=
    if_neg (mt List.contains_iff_mem.mp (chooseOne_not_target chosen))
  have record : Call.joinedBy x (c.declinedBy crew) = { c with
      declined := c.declined ++ [crew], targets := c.targets ++ [x], paged := addToSet c.paged x } := by
    rw [← targets]
    rfl
  have around : t.sched = s.sched ∧ t.line = s.line ∧ t.registry.directory = s.registry.directory ∧
      t.clock = s.clock ∧ t.store = s.store := by
    have moved := chooseOne_state s p c.targets (c.declined ++ [crew])
    rw [chosen] at moved
    rcases moved with rfl | ⟨y, rfl⟩ <;> exact ⟨rfl, rfl, rfl, rfl, rfl⟩
  obtain ⟨sched, line, directory, clock, store⟩ := around
  refine ⟨c', found, record ▸ core, frame.posted posted, ⟨v, joined.sched.trans sched, joined.line.trans line,
    (congrArg Registry.directory joined.registry).trans directory, joined.clock.trans clock,
    joined.store.trans store, ?_, by rw [pages], by rw [pages]⟩, ?_⟩
  · rw [joined.found]
    rfl
  · rw [pages, forEach_registry _ _ produce_registry, joined.registry]
end

/-- Settles O38. -/
theorem declinesAreRemembered : Obligations.DeclinesAreRemembered := by
  refine ⟨fun s c crew h => ackDecline_noted s h, fun s c crew noneChosen hc hp target none_iff =>
    ⟨ackDecline_again hc hp target, fun first none' left => ?_, fun first none' all hl => ?_,
      fun first p x t pool room chosen => ?_⟩⟩
  · have unreplaced := ackDecline_unreplaced hc hp target first (none_iff.mp none')
    have left' : ¬ ∀ k ∈ c.targets, k = crew ∨ k ∈ c.declined := fun all =>
      left.elim fun k ⟨hk, other, waits⟩ => (all k hk).elim other waits
    rw [if_neg left'] at unreplaced
    have frame := ackDecline_frame hc hp target
    have declined := at_declinedBy (crew := crew) hc
    rw [unreplaced] at frame ⊢
    exact ⟨declined.found, State.changeCall_posts s _ _ hc, declined.sched, declined.line, declined.registry, frame⟩
  · have unreplaced := ackDecline_unreplaced hc hp target first (none_iff.mp none')
    rw [if_pos all] at unreplaced
    have frame := ackDecline_frame hc hp target
    have declined := at_declinedBy (crew := crew) hc
    obtain ⟨c', found, advances⟩ := advanceCall_done (c := c.declinedBy crew) hl declined
    rw [unreplaced] at frame ⊢
    exact ⟨c', found, advances, advanceCall_posts declined.found, frame⟩
  · obtain ⟨c', found, core, posted, pages, registry⟩ := ackDecline_replaced hc hp target first pool room chosen
    exact ⟨c', found, core, posted, pages, registry, ackDecline_frame hc hp target⟩

/-! ### Acceptance by a crew with room (R81, R82) -/

/-- What the record of an acceptance leaves alone, and what it makes of the crews (R81). -/
theorem acceptRecord_rest (s : State) (c : Call) (crew : Nat) (heard : Tick) :
    (s.acceptRecord c crew heard).sched = s.sched ∧ (s.acceptRecord c crew heard).line = s.line ∧
      (s.acceptRecord c crew heard).clock = s.clock ∧ (s.acceptRecord c crew heard).store = s.store ∧
      (s.acceptRecord c crew heard).ladders = s.ladders ∧ (s.acceptRecord c crew heard).acks = s.acks ∧
      (s.acceptRecord c crew heard).registry = (s.putCrew crew { s.crew crew with
        accepted := (s.crew crew).accepted ++ [c.number] }).registry := by
  unfold State.acceptRecord State.changeCrew State.putCrew
  simp

theorem acceptRecord_crew (s : State) (c : Call) {crew : Nat} (heard : Tick) (h1 : 1 ≤ crew) (h2 : crew ≤ 48) :
    (s.acceptRecord c crew heard).crew crew =
        { s.crew crew with accepted := (s.crew crew).accepted ++ [c.number] } ∧
      ∀ k, k ≠ crew → (s.acceptRecord c crew heard).crew k = s.crew k := by
  obtain ⟨-, -, -, -, -, -, registry⟩ := acceptRecord_rest s c crew heard
  refine ⟨?_, fun k hk => ?_⟩ <;> rw [crew_of_registry registry, State.putCrew_crew_eq]
  · exact if_pos ⟨rfl, h1, h2⟩
  · exact if_neg fun e => hk e.1

/-- After the record the pages of the call are withdrawn, and every other undeclined crew of the paged set is stood down
with the name of the acceptor (R82). -/
theorem acceptCall_standsDown (s : State) (c : Call) {crew : Nat} (heard : Tick) (h1 : 1 ≤ crew) (h2 : crew ≤ 48) :
    s.acceptCall c crew heard = forEach ((stoodDown c crew).flatMap fun k =>
      (s.crew k).members.map (standDown c (s.crew crew).name)) State.produce
      ((s.acceptRecord c crew heard).withdrawPages c.number) := by
  obtain ⟨mine, others⟩ := acceptRecord_crew s c heard h1 h2
  have crews : ∀ k, ((s.acceptRecord c crew heard).withdrawPages c.number).crew k = (s.acceptRecord c crew heard).crew k :=
    fun _ => rfl
  rw [acceptCall_eq, sendToCrews_eq, crews, mine]
  refine congrArg (fun items => forEach items State.produce _) (List.flatMap_congr fun k hk => ?_)
  have other : k ≠ crew := by
    have := (List.mem_filter.mp hk).2
    simp only [Bool.and_eq_true, decide_eq_true_eq] at this
    exact this.1
  rw [crews, others k other]

/-- The pages withdrawn at an acceptance do not come back with its stand-downs (R82). -/
theorem acceptCall_noPages (s : State) (c : Call) (crew : Nat) (heard : Tick) :
    (s.acceptCall c crew heard).NoPages c.number := by
  rw [acceptCall_eq]
  exact State.NoPages.forEach _ (fun _ s hs => hs.produce rfl) (noPages_withdrawPages _ _)

/-- The crews after an acceptance (R81). -/
theorem acceptCall_crew (s : State) (c : Call) {crew : Nat} (heard : Tick) (h1 : 1 ≤ crew) (h2 : crew ≤ 48) :
    (s.acceptCall c crew heard).crew crew =
        { s.crew crew with accepted := (s.crew crew).accepted ++ [c.number] } ∧
      ∀ k, k ≠ crew → (s.acceptCall c crew heard).crew k = s.crew k := by
  obtain ⟨mine, others⟩ := acceptRecord_crew s c heard h1 h2
  have kept := (engine_acceptCall s c crew heard).frame.crew
  exact ⟨(kept crew).trans mine, fun k hk => (kept k).trans (others k hk)⟩

/-- An acceptance changes no other call in more than its force-wide flag (R81, R106). -/
theorem acceptCall_others (s : State) (c : Call) (crew : Nat) (heard : Tick) {m : Nat} (hm : m ≠ c.number) :
    ((s.acceptCall c crew heard).findCall m).map Call.core = (s.findCall m).map Call.core := by
  rw [(engine_acceptCall s c crew heard).frame.others m id, acceptRecord_findCall]
  simp [hm]

/-- The record of an accepted call (R58, R81). -/
theorem acceptedBy_eq (s : State) (c : Call) (crew : Nat) (heard : Tick) :
    Call.acceptedBy crew heard s.clock s.arrivalWindow c = { c with
      state := .accepted
      accepting := some crew
      acceptTick := some heard
      onSceneTick := none
      stepDeadline := none
      nextRepeat := none
      arrivalDeadline := some (s.clock + BitVec.ofNat 24
        (max 40 (min 14400 ((s.ladder c.ladder).arrival * s.factor c.cls))))
      heldBeacon := none
      referred := false
      directed := false } := by
  rw [← windowTicks_eq]
  rfl

/-! ### ACCEPT and ON_SCENE by the state of the call (R80, R83, R84, R86) -/

section
variable (s : State) {c : Call} (crew : Nat) (heard : Tick)

theorem ackAccept_waiting (waits : c.state = .paging ∨ c.state = .exhausted) : s.ackAccept c crew heard =
    if crew ∉ c.paged then s else if s.hasRoom crew then s.acceptCall c crew heard else s.acceptAsDecline c crew := by
  unfold State.ackAccept
  rcases waits with e | e <;> simp [e]

theorem ackOnScene_waiting (waits : c.state = .paging ∨ c.state = .exhausted) : s.ackOnScene c crew heard =
    if crew ∉ c.paged then s else if s.hasRoom crew then
      (s.acceptCall c crew heard).changeCall c.number (Call.arrived Call.acceptTick)
    else s.acceptAsDecline c crew := by
  unfold State.ackOnScene
  rcases waits with e | e <;> simp [e] <;> rfl

theorem acceptAsDecline_eq : s.acceptAsDecline c crew = (s.withNotice (.crew crew)).ackDecline c crew := by
  rw [← post_eq_withNotice]
  rfl

/-- An ACCEPT of a call that crew `a` has taken (R84). -/
theorem ackAccept_taken {a : Nat} (taken : c.state = .accepted ∨ c.state = .onScene) (ha : c.accepting = some a) :
    s.ackAccept c crew heard = if a = crew then s else if crew ∈ c.declined ∨ crew ∉ c.paged then
      s.sendToCrews (standDown c (s.crew a).name) [crew] else s := by
  unfold State.ackAccept State.lateAccept
  rcases taken with e | e <;> simp [e, ha]

end

/-- Settles O36: the acceptance, the refusals to a crew that was not paged or has no room, and the late ACCEPT. -/
theorem acceptanceTakesTheCall : Obligations.AcceptanceTakesTheCall := by
  refine ⟨fun s c crew heard hc waits paged room h1 h2 => ?_, fun s c crew heard waits =>
    ⟨fun unpaged => ?_, fun paged full => ?_⟩, fun s c crew a heard taken ha => ⟨fun stray => ?_, fun other late => ?_⟩⟩
  · have accepts : s.ackAccept c crew heard = s.acceptCall c crew heard := by
      rw [ackAccept_waiting s crew heard waits, if_neg (not_not.mpr paged)]
      exact if_pos (decide_eq_true room)
    obtain ⟨c', found, core⟩ := acceptCall_found s c crew heard hc
    obtain ⟨mine, others⟩ := acceptCall_crew s c heard h1 h2
    obtain ⟨sched, line, clock, store, ladders, acks, registry⟩ := acceptRecord_rest s c crew heard
    have frame := (engine_acceptCall s c crew heard).frame
    have lineFrame := frame.line
    rw [line] at lineFrame
    refine ⟨_, (s.acceptRecord c crew heard).withdrawPages c.number, c', accepts, found,
      core.trans (congrArg Call.core (acceptedBy_eq s c crew heard)), mine, others, acceptCall_posts hc crew heard,
      frame.posted (State.mem_post _ _), acceptCall_noPages s c crew heard, fun m => acceptCall_others s c crew heard,
      acceptCall_standsDown s c heard h1 h2, ?_, line, (congrArg Registry.directory registry :), frame.clock.trans clock,
      frame.store.trans store, frame.ladders.trans ladders, frame.acks.trans acks, lineFrame⟩
    unfold State.withdrawPages
    rw [sched]
    rfl
  · rw [ackAccept_waiting s crew heard waits, ackOnScene_waiting s crew heard waits, if_pos unpaged, if_pos unpaged]
    exact ⟨rfl, rfl⟩
  · have noRoom : ¬ s.hasRoom crew = true := fun h => absurd (of_decide_eq_true h) (Nat.not_lt.mpr full)
    rw [ackAccept_waiting s crew heard waits, ackOnScene_waiting s crew heard waits, if_neg (not_not.mpr paged),
      if_neg (not_not.mpr paged), if_neg noRoom, if_neg noRoom]
    exact ⟨acceptAsDecline_eq s crew, acceptAsDecline_eq s crew⟩
  · rw [ackAccept_taken s crew heard taken ha]
    split
    · rfl
    · next other =>
      rcases stray with rfl | ⟨paged, standing⟩
      · exact absurd rfl other
      · exact if_neg (not_or.mpr ⟨standing, not_not.mpr paged⟩)
  · rw [ackAccept_taken s crew heard taken ha, if_neg (Ne.symm other), if_pos late, sendToCrews_eq,
      List.flatMap_singleton]
    rfl

end Sys2Proof.Machine
end

section
/-!
SUPPORT. The entry to LOCAL: the calls that referred to the plant computer advance, one whole after the other (R67, R174).
It settles O13.
-/

namespace Sys2Proof.Machine

/-! ### Referred calls (R66, R67) -/

/-- The record is PAGING with its referred flag set. -/
def Call.refers (c : Call) : Bool := decide (c.state = .paging) && c.referred

/-- Number `n` names such a record. -/
def State.refersAt (s : State) (n : Nat) : Bool := (s.findCall n).any Call.refers

theorem Call.refers_iff (c : Call) : c.refers = true ↔ c.state = .paging ∧ c.referred = true := by
  simp [Call.refers]

theorem refersAt_found {s : State} {n : Nat} {c : Call} (hc : s.findCall n = some c) : s.refersAt n = c.refers := by
  rw [State.refersAt, hc]
  rfl

theorem found_of_refersAt {s : State} {n : Nat} (h : s.refersAt n = true) : ∃ c, s.findCall n = some c := by
  obtain ⟨c, hc, -⟩ := (Option.any_eq_true _ _).mp h
  exact ⟨c, hc⟩

/-- Whether a call refers does not rest on its force-wide flag. -/
theorem refersAt_of_core {s t : State} {n : Nat} (h : (t.findCall n).map Call.core = (s.findCall n).map Call.core) :
    t.refersAt n = s.refersAt n := by
  have core : ∀ u : State, u.refersAt n = ((u.findCall n).map Call.core).any Call.refers := fun u => by
    unfold State.refersAt
    rw [Option.any_map]
    rfl
  rw [core, core, h]

theorem pagingAt_of_refersAt {s : State} {n : Nat} (h : s.refersAt n = true) : s.PagingAt n := fun c hc => by
  rw [refersAt_found hc, Call.refers_iff] at h
  exact h.1

theorem advanceReferred_eq (n : Nat) (s : State) :
    State.advanceReferred n s = if s.refersAt n then s.advanceCall n else s := by
  unfold State.advanceReferred
  cases hc : s.findCall n with
  | none =>
    have : s.refersAt n = false := by rw [State.refersAt, hc]; rfl
    rw [this]
    rfl
  | some c =>
    rw [refersAt_found hc]
    exact ite_congr (propext (c.refers_iff).symm) (fun _ => rfl) fun _ => rfl

theorem Call.GivenUp.exhausted {lad : Ladder} {c c' : Call} (h : Call.GivenUp lad c c') : c'.state = .exhausted := by
  by_cases last : lad.steps.length ≤ c.stepIndex ∧ lad.restartLimit ≤ c.restarts
  · rw [h.atOnce last.1 last.2]
    rfl
  · rw [h.throughEmptySteps (by omega)]
    rfl

/-- With no link to the plant computer no step that starts is a referral (R52, R66). -/
theorem not_refersAt_of_done {s t : State} {n : Nat} {c : Call} (offline : s.link.state ≠ .online)
    (done : s.Done n c t) : t.refersAt n = false := by
  obtain ⟨c', found, advances⟩ := done
  rw [refersAt_found found, ← Bool.not_eq_true, Call.refers_iff]
  rintro ⟨paging, refers⟩
  rcases advances with ⟨⟨-, x, -, -, -, -, ⟨-, resolves⟩, -⟩, -⟩ | ⟨givenUp, -⟩
  · have quiet : c'.referred = false := by
      cases kind : x.kind <;> rw [kind] at resolves
      case refer => exact absurd resolves.1 offline
      case poolOne =>
        obtain ⟨-, -, -, -, -, quiet, -⟩ := resolves
        exact quiet
      case poolAll =>
        obtain ⟨-, -, -, quiet, -⟩ := resolves
        exact quiet
      all_goals
        obtain ⟨-, -, quiet, -⟩ := resolves
        exact quiet
    exact Bool.false_ne_true (quiet.symm.trans refers)
  · cases paging.symm.trans givenUp.exhausted

/-! ### One call after the other -/

/-- The state in which the first `k` of these calls have advanced. -/
def State.advancing (s : State) (ns : List Nat) (k : Nat) : State :=
  forEach (ns.take k) (fun n t => t.advanceCall n) s

theorem advancing_succ (s : State) {ns : List Nat} {k n : Nat} (h : ns[k]? = some n) :
    s.advancing ns (k + 1) = (s.advancing ns k).advanceCall n := by
  unfold State.advancing forEach
  rw [List.take_add_one, h, List.foldl_append]
  rfl

/-- Of distinct calls, the ones that refer at the start are the ones that advance: the advance of one call leaves whether
another refers (R67). -/
theorem forEach_advanceReferred (ns : List Nat) (distinct : ns.Nodup) (s : State) :
    forEach ns State.advanceReferred s = forEach (ns.filter s.refersAt) (fun n t => t.advanceCall n) s := by
  induction ns generalizing s with
  | nil => rfl
  | cons n ns ih =>
    obtain ⟨fresh, rest⟩ := List.nodup_cons.mp distinct
    show forEach ns State.advanceReferred (State.advanceReferred n s) = _
    rw [advanceReferred_eq]
    by_cases h : s.refersAt n = true
    · have frame := (engine_advanceCall s n (pagingAt_of_refersAt h)).frame
      have same : ns.filter (s.advanceCall n).refersAt = ns.filter s.refersAt := List.filter_congr fun m hm =>
        refersAt_of_core (frame.others m fun e => fresh (e ▸ hm))
      rw [if_pos h, ih rest, same, List.filter_cons_of_pos h]
      rfl
    · rw [if_neg h, ih rest, List.filter_cons_of_neg h]

section
variable {s : State} {ns : List Nat} (distinct : ns.Nodup) (refer : ∀ n ∈ ns, s.refersAt n = true)
  (ladders : ∀ l, (s.ladder l).inRange = true)
include distinct refer ladders

/-- A call whose turn it is stands as it stood at the start but for its force-wide flag, and its advance is complete. -/
theorem call_at_its_turn {t : State} {k n : Nat} (engine : Engine (fun m => m ∈ ns.take k) s t) (hn : ns[k]? = some n) :
    t.PagingAt n ∧ ∃ c, t.findCall n = some c ∧ (s.findCall n).map Call.core = some c.core ∧
      t.Done n c (t.advanceCall n) := by
  have fresh : n ∉ ns.take k := fun earlier => by
    obtain ⟨i, hi, e⟩ := List.mem_iff_getElem.mp earlier
    rw [List.getElem_take] at e
    rw [List.length_take] at hi
    obtain ⟨hk, e'⟩ := List.getElem?_eq_some_iff.mp hn
    have := (distinct.getElem_inj_iff).mp (e.trans e'.symm)
    omega
  have same := engine.frame.others n fresh
  have refers : t.refersAt n = true := (refersAt_of_core same).trans (refer n (List.mem_of_getElem? hn))
  refine ⟨pagingAt_of_refersAt refers, ?_⟩
  obtain ⟨c, hc⟩ := found_of_refersAt refers
  rw [hc] at same
  exact ⟨c, hc, same.symm, advanceCall_done (by rw [engine.frame.ladder]; exact ladders _) (.refl hc)⟩

/-- While they advance in turn nothing else changes but what escalation may change, and none that has advanced refers. -/
theorem advancing_reaches (offline : s.link.state ≠ .online) (k : Nat) (hk : k ≤ ns.length) :
    Engine (fun m => m ∈ ns.take k) s (s.advancing ns k) ∧
      ∀ n ∈ ns.take k, (s.advancing ns k).refersAt n = false := by
  induction k with
  | zero => exact ⟨.refl, fun n hn => by simp at hn⟩
  | succ k ih =>
    obtain ⟨engine, quiet⟩ := ih (Nat.le_of_succ_le hk)
    obtain ⟨n, hn⟩ : ∃ n, ns[k]? = some n := ⟨_, List.getElem?_eq_getElem hk⟩
    obtain ⟨paging, c, -, -, done⟩ := call_at_its_turn distinct refer ladders engine hn
    have step := engine_advanceCall _ n paging
    have take : ns.take (k + 1) = ns.take k ++ [n] := by rw [List.take_add_one, hn]; rfl
    rw [advancing_succ s hn, take]
    refine ⟨(Engine.mono (fun m hm => List.mem_append_left _ hm) engine).trans
      (Engine.mono (fun m hm => List.mem_append_right _ (List.mem_singleton.mpr hm)) step), fun m hm => ?_⟩
    by_cases e : m = n
    · rw [e]
      exact not_refersAt_of_done (by rw [engine.frame.link]; exact offline) done
    · rw [refersAt_of_core (step.frame.others m e)]
      exact quiet m ((List.mem_append.mp hm).resolve_right fun h => e (List.mem_singleton.mp h))

end

/-! ### The expiry of the silence timer (R174) -/

/-- The state in which the link has entered LOCAL (R174). -/
def State.goneLocal (s : State) : State :=
  State.withNotice { s with link := { s.link with state := .local, silence := none } } .part

theorem exec_silenceTimerExpiry_reached {s : State} {d : Tick} (online : s.link.state = .online)
    (hd : s.link.silence = some d) (due : (s.clock - d).toNat < 8388608) :
    exec .silenceTimerExpiry s = .next s.goneLocal.advanceAllReferred.sendReady := by
  refine (if_pos ⟨online, (dueAt_iff _ _).mpr ⟨d, hd, due⟩⟩).trans ?_
  rw [post_eq_withNotice]
  rfl

/-- The numbers that refer, out of all in the book, are those of the records that refer. -/
theorem filter_refersAt {s : State} (distinct : (s.book.calls.map Call.number).Nodup) :
    (s.book.calls.map Call.number).filter s.refersAt = (s.book.calls.filter Call.refers).map Call.number := by
  rw [List.filter_map]
  refine congrArg _ (List.filter_congr fun c hc => ?_)
  cases hx : s.findCall c.number with
  | none => exact absurd ⟨c, hc, rfl⟩ (mt (s.findCall_ne_none_iff c.number).mpr (not_not.mpr hx))
  | some x =>
    rw [List.inj_on_of_nodup_map distinct (State.findCall_mem hx) hc (State.findCall_number hx)] at hx
    exact refersAt_found hx

/-- Settles O13: the advances in turn, and what they leave. -/
theorem silenceTakesTheLinkToLocal : Obligations.SilenceTakesTheLinkToLocal := by
  intro s d ns online hd due ascending ladders hns
  have numbers : (s.book.calls.map Call.number).Nodup := ascending.imp Nat.ne_of_lt
  have listed : ns = (s.goneLocal.book.calls.map Call.number).filter s.goneLocal.refersAt :=
    hns.trans (filter_refersAt (s := s.goneLocal) numbers).symm
  have distinct : ns.Nodup := listed ▸ numbers.filter _
  have refer : ∀ n ∈ ns, s.goneLocal.refersAt n = true := fun n hn => (List.mem_filter.mp (listed ▸ hn)).2
  have reaches := advancing_reaches (s := s.goneLocal) distinct refer ladders nofun
  refine ⟨s.goneLocal.advancing ns, rfl, fun k n hn => ?_, ?_, fun n c found paging => ?_⟩
  · obtain ⟨engine, -⟩ := reaches k (Nat.le_of_lt (List.getElem?_eq_some_iff.mp hn).1)
    obtain ⟨atTurn, c, found, core, c', found', advances⟩ := call_at_its_turn distinct refer ladders engine hn
    rw [advancing_succ _ hn]
    exact ⟨c, c', found, found', core, advances, advanceCall_posts found, (engine_advanceCall _ n atTurn).frame⟩
  · have all : s.goneLocal.advanceAllReferred = s.goneLocal.advancing ns ns.length := by
      rw [State.advancing, List.take_length, listed]
      exact forEach_advanceReferred _ numbers _
    rw [exec_silenceTimerExpiry_reached online hd due, all]
  · obtain ⟨engine, quiet⟩ := reaches ns.length (Nat.le_refl _)
    rw [List.take_length] at engine quiet
    have unreferring : (s.goneLocal.advancing ns ns.length).refersAt n = false := by
      by_cases mem : n ∈ ns
      · exact quiet n mem
      · have same := engine.frame.others n mem
        rw [refersAt_of_core same, ← Bool.not_eq_true]
        intro refers
        obtain ⟨x, hx⟩ := found_of_refersAt refers
        refine mem (listed ▸ List.mem_filter.mpr ⟨?_, refers⟩)
        exact State.findCall_number hx ▸ List.mem_map_of_mem (State.findCall_mem hx)
    rw [refersAt_found found, ← Bool.not_eq_true, Call.refers_iff] at unreferring
    rw [← Bool.not_eq_true]
    exact fun h => unreferring ⟨paging, h⟩

end Sys2Proof.Machine
end

section
/-!
SUPPORT. SET_LADDER (R46 to R48, R189, R190): its payload, the checks of its steps, and the ladder it gives. It settles
O26.
-/

namespace Sys2Proof.Machine

/-! ### The payload (R189) -/

theorem exec_setLadder {s : State} (h : s.TakesRequests) (tag : Byte) (p : List Byte) (hp : p.length ≤ 250) {a : Answer}
    (ha : reqSetLadder p s.heard = a) : exec (.setLadder tag p) s = .next (State.sends 0x8C#8 tag a) :=
  ha ▸ congrArg _ (receiveFrame_sends h 0x0C#8 tag p hp)

/-- What the six characters of a step say (R189). -/
def stepOperands (v : Vector Byte 6) : StepOperands :=
  ⟨v[0].toNat, v[1].toNat, dec2 v[2] v[3], v[4].toNat, v[5].toNat⟩

theorem readSteps_flatMap (vs : List (Vector Byte 6)) :
    readSteps (vs.flatMap Vector.toList) = some (vs.map stepOperands) := by
  induction vs with
  | nil => rfl
  | cons v vs ih =>
    have chars : v.toList = [v[0], v[1], v[2], v[3], v[4], v[5]] :=
      List.ext_getElem (by simp) fun i hi _ => by
        rw [Vector.length_toList] at hi
        interval_cases i <;> simp
    rw [List.flatMap_cons, chars]
    show (match readSteps (vs.flatMap Vector.toList) with | some xs => _ | none => _) = _
    rw [ih]
    rfl

/-- The payload of a SET_LADDER with these steps, six characters each (R189). -/
def ladderPayload (lad hi lo restarts xb : Byte) (vs : List (Vector Byte 6)) : List Byte :=
  [lad, hi, lo, restarts, xb, BitVec.ofNat 8 vs.length] ++ vs.flatMap Vector.toList

theorem ladderPayload_length (lad hi lo restarts xb : Byte) {vs : List (Vector Byte 6)} (h : vs.length ≤ 40) :
    (ladderPayload lad hi lo restarts xb vs).length ≤ 250 := by
  have six : (vs.flatMap Vector.toList).length = vs.length * 6 := by
    simp [List.length_flatMap]
  rw [ladderPayload, List.length_append, six]
  show 6 + _ ≤ 250
  omega

theorem readLadder_eq (lad hi lo restarts xb : Byte) {vs : List (Vector Byte 6)} (h : vs.length ≤ 40) :
    readLadder (ladderPayload lad hi lo restarts xb vs) =
      some ⟨lad.toNat, dec2 hi lo, restarts.toNat, xb.toNat, vs.map stepOperands⟩ := by
  show (match readSteps (vs.flatMap Vector.toList) with | some xs => _ | none => _) = _
  rw [readSteps_flatMap]
  dsimp only
  rw [toNat_count (by omega), List.length_map, if_pos rfl]

/-- A ladder put in place and shown, or refused (R47). -/
def State.takeLadder (s : State) (o : LadderOperands) : Answer :=
  match o.toLadder with
  | none => s.refuse .badValue
  | some l => (s.setLadders (setRow s.ladders o.ladder l)).answer (ladderReply o.ladder l)

theorem takeLadder_none (s : State) {o : LadderOperands} (h : o.toLadder = none) :
    s.takeLadder o = s.refuse .badValue := by
  unfold State.takeLadder; rw [h]

theorem takeLadder_some (s : State) {o : LadderOperands} {l : Ladder} (h : o.toLadder = some l) :
    s.takeLadder o = (s.setLadders (setRow s.ladders o.ladder l)).answer (ladderReply o.ladder l) := by
  unfold State.takeLadder; rw [h]

theorem reqSetLadder_eq (p : List Byte) (s : State) :
    reqSetLadder p s = s.withOperands (readLadder p) fun o => s.unlessSaving (s.takeLadder o) := rfl

theorem exec_setLadder_idle {s : State} (h : s.TakesRequests) (idle : s.store.state = .idle) (tag : Byte)
    (lad hi lo restarts xb : Byte) {vs : List (Vector Byte 6)} (hv : vs.length ≤ 40) :
    exec (.setLadder tag (ladderPayload lad hi lo restarts xb vs)) s = .next (State.sends 0x8C#8 tag
      (s.heard.takeLadder ⟨lad.toNat, dec2 hi lo, restarts.toNat, xb.toNat, vs.map stepOperands⟩)) := by
  refine exec_setLadder h tag _ (ladderPayload_length lad hi lo restarts xb hv) ?_
  rw [reqSetLadder_eq, readLadder_eq lad hi lo restarts xb hv]
  exact unlessSaving_idle idle _

/-! ### The checks of the steps (R46 to R48) -/

theorem toSteps_eq_none {os : List StepOperands} (h : ∃ o ∈ os, o.toStep = none) : toSteps os = none := by
  obtain ⟨o, ho, bad⟩ := h
  induction os with
  | nil => cases ho
  | cons p os ih =>
    unfold toSteps
    rcases List.mem_cons.mp ho with rfl | ho
    · rw [bad]
    · rw [ih ho]
      cases p.toStep <;> rfl

theorem toSteps_map {α : Type} (f : α → StepOperands) (g : α → LadderStep) {xs : List α}
    (h : ∀ x ∈ xs, (f x).toStep = some (g x)) : toSteps (xs.map f) = some (xs.map g) := by
  induction xs with
  | nil => rfl
  | cons x xs ih =>
    rw [List.map_cons, toSteps, h x List.mem_cons_self, ih fun y hy => h y (List.mem_cons_of_mem _ hy)]
    rfl

/-- A step is refused for its kind, the operand of a CREW or pool step, or its beacon (R47). -/
theorem toStep_eq_none {o : StepOperands} (h : 4 < o.kind ∨ o.kind = 0 ∧ (o.operand = 0 ∨ 48 < o.operand) ∨
    (o.kind = 1 ∨ o.kind = 2) ∧ (o.operand = 0 ∨ 16 < o.operand) ∨ 8 < o.beacon) : o.toStep = none := by
  have outside : ∀ {hi n : Nat}, n = 0 ∨ hi < n → within 1 hi n = false := fun h =>
    (within_eq_false_iff _ _ _).mpr (h.imp_left Nat.lt_one_iff.mpr)
  have kind : 8 < o.beacon ∨ o.stepKind = none := by
    unfold StepOperands.stepKind
    rcases h with h | ⟨h, bad⟩ | ⟨h | h, bad⟩ | h
    · refine .inr ?_
      simp only [show ¬ o.kind = 0 by omega, show ¬ o.kind = 1 by omega, show ¬ o.kind = 2 by omega,
        show ¬ o.kind = 3 by omega, show ¬ o.kind = 4 by omega, if_false]
    · exact .inr (by simp [h, outside bad])
    · exact .inr (by simp [h, outside bad])
    · exact .inr (by simp [h, outside bad])
    · exact .inl h
  unfold StepOperands.toStep
  rcases kind with h | h
  · rw [(within_eq_false_iff 0 8 o.beacon).mpr (.inr h)]
    cases o.stepKind <;> rfl
  · rw [h]

/-- A ladder is refused for its number, its step count, its restart limit, its exhaust beacon or one of its steps (R47). -/
theorem toLadder_eq_none {o : LadderOperands} (h : ¬ (1 ≤ o.ladder ∧ o.ladder ≤ 16 ∧ 1 ≤ o.steps.length ∧
    o.steps.length ≤ 8 ∧ o.restartLimit ≤ 3 ∧ o.exhaustBeacon ≤ 8) ∨ ∃ x ∈ o.steps, x.toStep = none) :
    o.toLadder = none := by
  unfold LadderOperands.toLadder
  rcases h with h | h
  · refine if_pos ?_
    simp only [Bool.or_eq_true, Bool.not_eq_true', within_eq_false_iff]
    omega
  · rw [toSteps_eq_none h]
    split <;> rfl

theorem toLadder_inRange_eq {o : LadderOperands} {xs : List LadderStep} (h : 1 ≤ o.ladder ∧ o.ladder ≤ 16 ∧
    1 ≤ o.steps.length ∧ o.steps.length ≤ 8 ∧ o.restartLimit ≤ 3 ∧ o.exhaustBeacon ≤ 8)
    (hx : toSteps o.steps = some xs) : o.toLadder = some ⟨xs, max 30 (min 900 o.arrival), o.restartLimit,
      if o.exhaustBeacon = 0 then none else some o.exhaustBeacon⟩ := by
  unfold LadderOperands.toLadder
  rw [if_neg, hx, clamp_eq_max_min (by decide)]
  · rfl
  · simp only [Bool.or_eq_true, Bool.not_eq_true', within_eq_false_iff]
    omega

/-! ### The steps that pass (R46, R48, R190) -/

/-- The number of a step kind and its operand, `y` where it has none (R190). -/
def kindNumbers (y : Byte) : StepKind → Nat × Nat
  | .crew c => (0, c)
  | .poolOne p => (1, p)
  | .poolAll p => (2, p)
  | .refer => (3, y.toNat)
  | .noTarget => (4, y.toNat)

/-- The characters of a step, `y` in the place of an operand that is not kept (R189, R190). -/
def stepVector (x : LadderStep × Byte) : Vector Byte 6 :=
  #v[BitVec.ofNat 8 (kindNumbers x.2 x.1.kind).1, BitVec.ofNat 8 (kindNumbers x.2 x.1.kind).2,
    BitVec.ofNat 8 (x.1.window / 256), BitVec.ofNat 8 x.1.window, BitVec.ofNat 8 x.1.repeats,
    BitVec.ofNat 8 (x.1.beacon.getD 0)]

theorem stepVector_toList (x : LadderStep × Byte) : (stepVector x).toList =
    if x.1.kind = .refer ∨ x.1.kind = .noTarget then (encStep x.1).set 1 x.2 else encStep x.1 := by
  rw [encStep_eq, stepVector]
  cases x.1.kind <;> simp [kindNumbers, kindChars]

theorem kindNumbers_lt {k : StepKind} (h : k.inRange = true) (y : Byte) :
    (kindNumbers y k).1 < 256 ∧ (kindNumbers y k).2 < 256 := by
  cases k <;> simp only [StepKind.inRange, within_iff] at h <;> simp only [kindNumbers] <;> omega

/-- A step with its operand and its beacon in range passes, its window and repeats clamped (R47, R48). -/
theorem stepVector_toStep {x : LadderStep × Byte} (hk : x.1.kind.inRange = true) (hw : x.1.window < 65536)
    (hr : x.1.repeats < 256) (hb : ∀ z, x.1.beacon = some z → 1 ≤ z ∧ z ≤ 8) :
    (stepOperands (stepVector x)).toStep = some { x.1 with
      window := max 5 (min 900 x.1.window), repeats := min 7 x.1.repeats } := by
  obtain ⟨code, operand⟩ := kindNumbers_lt hk x.2
  have beacon : x.1.beacon.getD 0 ≤ 8 ∧ optRef (x.1.beacon.getD 0) = x.1.beacon := by
    cases e : x.1.beacon with
    | none => exact ⟨Nat.zero_le _, rfl⟩
    | some z =>
      obtain ⟨h1, h8⟩ := hb z e
      exact ⟨h8, if_neg (Nat.ne_of_gt h1)⟩
  have operands : stepOperands (stepVector x) = ⟨(kindNumbers x.2 x.1.kind).1, (kindNumbers x.2 x.1.kind).2,
      x.1.window, x.1.repeats, x.1.beacon.getD 0⟩ := by
    show StepOperands.mk (BitVec.ofNat 8 _).toNat (BitVec.ofNat 8 _).toNat (dec2 (BitVec.ofNat 8 _) (BitVec.ofNat 8 _))
      (BitVec.ofNat 8 _).toNat (BitVec.ofNat 8 _).toNat = _
    rw [toNat_count code, toNat_count operand, dec2_enc2 hw, toNat_count hr, toNat_count (by omega)]
  have kind : StepOperands.stepKind ⟨(kindNumbers x.2 x.1.kind).1, (kindNumbers x.2 x.1.kind).2,
      x.1.window, x.1.repeats, x.1.beacon.getD 0⟩ = some x.1.kind := by
    cases e : x.1.kind <;> rw [e] at hk <;> simp_all [StepOperands.stepKind, kindNumbers, StepKind.inRange]
  rw [operands, StepOperands.toStep, kind, clamp_eq_max_min (by decide), clamp_eq_max_min (by decide), beacon.2]
  exact if_pos ((within_iff _ _ _).mpr ⟨Nat.zero_le _, beacon.1⟩)

/-! ### The request (R47, R48) -/

/-- Settles O26: the payload is read, and its ladder refused by a check or given with its values clamped. -/
theorem setLadderReplacesTheLadder : Obligations.SetLadderReplacesTheLadder := by
  refine ⟨fun s tag lad hi lo restarts xb vs h idle size ⟨v, hv, bad⟩ => ?_,
    fun s tag lad arrival restarts xb steps h idle hlad harrival hrestarts hxb size sound => ?_⟩
  · refine (exec_setLadder_idle h idle tag lad hi lo restarts xb size).trans ?_
    rw [takeLadder_none _ (toLadder_eq_none (.inr ⟨_, List.mem_map_of_mem hv, toStep_eq_none bad⟩))]
    rfl
  · have chars : steps.flatMap (fun x => if x.1.kind = .refer ∨ x.1.kind = .noTarget then (encStep x.1).set 1 x.2
        else encStep x.1) = (steps.map stepVector).flatMap Vector.toList := by
      rw [List.flatMap_map]
      exact List.flatMap_congr fun x _ => (stepVector_toList x).symm
    have executes := exec_setLadder_idle h idle tag (BitVec.ofNat 8 lad) (BitVec.ofNat 8 (arrival / 256))
      (BitVec.ofNat 8 arrival) (BitVec.ofNat 8 restarts) (BitVec.ofNat 8 xb) (vs := steps.map stepVector)
      ((List.length_map _).trans_le size)
    rw [toNat_count hlad, toNat_count hrestarts, toNat_count hxb, dec2_enc2 harrival, ladderPayload, List.length_map,
      List.map_map, ← chars] at executes
    have clamped := toSteps_map (stepOperands ∘ stepVector) (fun x : LadderStep × Byte => { x.1 with
        window := max 5 (min 900 x.1.window), repeats := min 7 x.1.repeats }) (xs := steps) fun x hx => by
      obtain ⟨hk, hw, hr, hb⟩ := sound x hx
      exact stepVector_toStep hk hw hr hb
    refine ⟨fun ok => ?_, fun bad => executes.trans ?_⟩
    · rw [takeLadder_some _ (toLadder_inRange_eq (by simpa using ok) clamped)] at executes
      refine ⟨s.heard.setLadders (setRow s.ladders lad _), _, rfl, executes, ?_, fun k hk => ?_, rfl⟩
      · exact row_setRow_self _ _ _ _ ok.1 ok.2.1
      · exact row_setRow_ne _ _ _ _ _ hk
    · rw [takeLadder_none _ (toLadder_eq_none (.inl (by simpa using bad)))]
      rfl

end Sys2Proof.Machine
end

section
/-!
SUPPORT. The operations of the blocks leave the site clock as it is (R43), in the order of the blocks: a chain of
escalation steps by the chain, every other operation by its branches.
-/

namespace Sys2Proof.Machine

/-! ### Chains of escalation steps -/

theorem Act.clock {s t : State} (a : Act s t) : t.clock = s.clock := by
  cases a with
  | change n f _ => exact State.changeCall_clock s n f
  | pointer | queue | withdraw | grants | bursts => rfl

theorem Acts.clock {s t : State} (a : Acts s t) : t.clock = s.clock := by
  induction a with
  | refl => rfl
  | tail _ h ih => exact h.clock.trans ih

theorem forEach_clock {α : Type} (xs : List α) (f : α → State → State) (h : ∀ x s, (f x s).clock = s.clock)
    (s : State) : (forEach xs f s).clock = s.clock := by
  induction xs generalizing s with
  | nil => rfl
  | cons x xs ih => exact (ih (f x s)).trans (h x s)

@[simp] theorem State.arbitrate_clock (s : State) (g : Nat) : (s.arbitrate g).clock = s.clock :=
  (acts_arbitrate s g).clock
@[simp] theorem State.releaseGrant_clock (s : State) (st : Nat) : (s.releaseGrant st).clock = s.clock :=
  (acts_releaseGrant s st).clock
@[simp] theorem State.setWaitIdle_clock (s : State) (st : Nat) (b : Bool) : (s.setWaitIdle st b).clock = s.clock :=
  (acts_setWaitIdle s st b).clock
@[simp] theorem State.flush_clock (s : State) (st : Nat) : (s.flush st).clock = s.clock := (acts_flush s st).clock
@[simp] theorem State.returnItems_clock (s : State) (st : Nat) : (s.returnItems st).clock = s.clock :=
  (acts_returnItems s st).clock
@[simp] theorem State.burstFailed_clock (s : State) (st : Nat) : (s.burstFailed st).clock = s.clock :=
  (acts_burstFailed s st).clock
@[simp] theorem State.burstTaken_clock (s : State) (st : Nat) : (s.burstTaken st).clock = s.clock :=
  (acts_burstTaken s st).clock
@[simp] theorem State.transmitterSeen_clock (s : State) (st : Nat) (busy : Bool) :
    (s.transmitterSeen st busy).clock = s.clock := (acts_transmitterSeen s st busy).clock
@[simp] theorem State.formBurst_clock (s : State) (st : Nat) : (s.formBurst st).1.clock = s.clock :=
  (acts_formBurst s st).clock
@[simp] theorem State.sendToCrews_clock (s : State) (mk : Nat → Item) (crews : List Nat) :
    (s.sendToCrews mk crews).clock = s.clock := (acts_sendToCrews s mk crews).clock
@[simp] theorem State.withdrawPages_clock (s : State) (n : Nat) : (s.withdrawPages n).clock = s.clock := rfl
@[simp] theorem State.advanceCall_clock (s : State) (n : Nat) : (s.advanceCall n).clock = s.clock :=
  (acts_advanceCall s n).clock
@[simp] theorem State.startCall_clock (s : State) (n : Nat) (pref : Option Nat) :
    (s.startCall n pref).clock = s.clock := (acts_startCall s n pref).clock
@[simp] theorem State.directStep_clock (s : State) (n crew b r : Nat) : (s.directStep n crew b r).clock = s.clock :=
  (acts_directStep s n crew b r).clock
@[simp] theorem State.engineDecline_clock (s : State) (n crew : Nat) : (s.engineDecline n crew).clock = s.clock :=
  (acts_engineDecline s n crew).clock
@[simp] theorem State.sendRepeat_clock (s : State) (c : Call) : (s.sendRepeat c).clock = s.clock :=
  (acts_sendRepeat s c).clock
@[simp] theorem State.advanceAllReferred_clock (s : State) : s.advanceAllReferred.clock = s.clock :=
  (acts_advanceAllReferred s).clock

/-! ### Crews, stations and beacons -/

@[simp] theorem State.changeCrew_clock (s : State) (c : Nat) (x : Crew) : (s.changeCrew c x).clock = s.clock :=
  State.post_clock _ _
@[simp] theorem State.leaveCrew_clock (s : State) (n crew : Nat) : (s.leaveCrew n crew).clock = s.clock :=
  State.changeCrew_clock _ _ _
@[simp] theorem State.changeStation_clock (s : State) (st : Nat) (x : Station) :
    (s.changeStation st x).clock = s.clock := State.post_clock _ _
@[simp] theorem State.setHold_clock (s : State) (z : Nat) (h : Option Cls) : (s.setHold z h).clock = s.clock :=
  State.actBeacon_clock _ z
@[simp] theorem State.setIdle_clock (s : State) (z : Nat) (v : Level) : (s.setIdle z v).clock = s.clock := rfl

@[simp] theorem State.beaconTick_clock (s : State) (z : Nat) : (s.beaconTick z).clock = s.clock := by
  unfold State.beaconTick
  dsimp only
  split <;> rfl

theorem State.restartIfChanged_clock (before : PerClass Pattern) (z : Nat) (s : State) :
    (State.restartIfChanged before z s).clock = s.clock := by
  unfold State.restartIfChanged
  split
  · rfl
  · split <;> rfl

/-! ### The call book -/

@[simp] theorem State.addCall_clock (s : State) (c : Call) : (s.addCall c).clock = s.clock := State.post_clock _ _
@[simp] theorem State.setPoint_clock (s : State) (st i : Nat) (x : PointState) :
    (s.setPoint st i x).clock = s.clock := rfl
@[simp] theorem State.without_clock (s : State) (n : Nat) : (s.without n).clock = s.clock := rfl
@[simp] theorem State.removePoint_clock (s : State) (st i : Nat) : (s.removePoint st i).clock = s.clock := rfl

@[simp] theorem State.definePoint_clock (s : State) (st i l : Nat) (cls : Cls) (text : Text) :
    (s.definePoint st i l cls text).clock = s.clock := by
  unfold State.definePoint
  split <;> rfl

theorem obtainSlot_clock {s u : State} (h : s.obtainSlot = some u) : u.clock = s.clock := by
  rcases obtainSlot_cases h with ⟨-, rfl⟩ | ⟨n, _, -, -, rfl⟩ <;> rfl

@[simp] theorem State.raiseFromPoint_clock (s : State) (p : CallPoint) : (s.raiseFromPoint p).clock = s.clock := by
  simp [raiseFromPoint_eq]

@[simp] theorem State.pressOpen_clock (s : State) (n : Nat) : (s.pressOpen n).clock = s.clock := by
  cases h : s.findCall n with
  | none => rw [pressOpen_none s n h]
  | some c => rw [pressOpen_eq s n c h]; split <;> simp

@[simp] theorem State.press_clock (s : State) (st i : Nat) : (s.press st i).clock = s.clock := by
  unfold State.press
  split
  · rfl
  · split
    · split
      · next hu => rw [State.raiseFromPoint_clock]; exact obtainSlot_clock hu
      · rfl
    · exact State.pressOpen_clock s _
    · rfl

theorem State.closeRecord_clock (s : State) (r : CloseReason) (c : Call) : (s.closeRecord r c).clock = s.clock := by
  obtain ⟨hmark, -⟩ := markClosed_rest ((s.sendCloseNotes r c).leaveCrew? c.number c.accepting) r c.number
  obtain ⟨-, hleave, -⟩ := leaveCrew?_rest (s.sendCloseNotes r c) c.number c.accepting
  calc (s.closeRecord r c).clock
    _ = _ := congrArg State.clock (closeRecord_eq s r c)
    _ = ((s.sendCloseNotes r c).leaveCrew? c.number c.accepting).clock := hmark
    _ = (s.sendCloseNotes r c).clock := hleave
    _ = s.clock := (engine_sendCloseNotes s r c).frame.clock

theorem State.settlePoint_clock (s : State) (c : Call) : (s.settlePoint c).clock = s.clock := by
  rw [settlePoint_eq]; rfl

theorem State.takePress_clock (s : State) (rest : List (Nat × Nat)) : (s.takePress rest).clock = s.clock := by
  unfold State.takePress State.evictOldest
  split <;> rfl

theorem State.servePending_clock (s : State) : s.servePending.clock = s.clock := by
  cases h : s.book.pendingPresses with
  | nil => rw [servePending_nil s h]
  | cons key rest =>
    rw [servePending_cons s key rest h]
    split
    · exact State.takePress_clock s rest
    · rw [State.raiseFromPoint_clock, State.takePress_clock]

@[simp] theorem State.closeCall_clock (s : State) (r : CloseReason) (n : Nat) :
    (s.closeCall r n).clock = s.clock := by
  cases h : s.findCall n with
  | none => unfold State.closeCall; rw [h]
  | some c =>
    rw [closeCall_eq s r n c h, State.servePending_clock, State.settlePoint_clock, State.closeRecord_clock]

@[simp] theorem State.releaseCrew_clock (s : State) (c : Call) : (s.releaseCrew c).clock = s.clock := by
  obtain ⟨-, hleave, -⟩ := leaveCrew?_rest (s.changeCall c.number Call.released) c.number c.accepting
  rw [releaseCrew_eq, hleave, State.changeCall_clock]

/-! ### Acknowledgements -/

@[simp] theorem State.acceptCall_clock (s : State) (c : Call) (crew : Nat) (heard : Tick) :
    (s.acceptCall c crew heard).clock = s.clock := by
  obtain ⟨-, -, hrecord, -⟩ := acceptRecord_rest s c crew heard
  exact (engine_acceptCall s c crew heard).frame.clock.trans hrecord

@[simp] theorem State.acceptAsDecline_clock (s : State) (c : Call) (crew : Nat) :
    (s.acceptAsDecline c crew).clock = s.clock := by
  unfold State.acceptAsDecline
  dsimp only
  split <;> simp

@[simp] theorem State.lateAccept_clock (s : State) (c : Call) (crew : Nat) :
    (s.lateAccept c crew).clock = s.clock := by
  unfold State.lateAccept
  split
  · rfl
  · split
    · rfl
    · split
      · exact State.sendToCrews_clock _ _ _
      · rfl

theorem State.ackAccept_clock (s : State) (c : Call) (crew : Nat) (heard : Tick) :
    (s.ackAccept c crew heard).clock = s.clock := by
  unfold State.ackAccept
  split <;> simp [apply_ite State.clock]

theorem State.ackDecline_clock (s : State) (c : Call) (crew : Nat) : (s.ackDecline c crew).clock = s.clock := by
  simp [State.ackDecline, apply_ite State.clock]

theorem State.ackOnScene_clock (s : State) (c : Call) (crew : Nat) (heard : Tick) :
    (s.ackOnScene c crew heard).clock = s.clock := by
  unfold State.ackOnScene
  split <;> simp [apply_ite State.clock]

theorem State.ackDone_clock (s : State) (c : Call) (crew : Nat) : (s.ackDone c crew).clock = s.clock := by
  unfold State.ackDone
  split <;> simp [apply_ite State.clock]

theorem State.applyAck_clock (s : State) (kind : AckKind) (c : Call) (crew : Nat) (heard : Tick) :
    (s.applyAck kind c crew heard).clock = s.clock := by
  cases kind with
  | accept => exact State.ackAccept_clock s c crew heard
  | decline => exact State.ackDecline_clock s c crew
  | onScene => exact State.ackOnScene_clock s c crew heard
  | done => exact State.ackDone_clock s c crew

@[simp] theorem State.matchAck_clock (s : State) (r : AckRecord) (heard : Tick) :
    (s.matchAck r heard).clock = s.clock := by
  unfold State.matchAck
  split
  · rfl
  · split
    · rfl
    · split
      · rfl
      · split
        · rfl
        · exact State.applyAck_clock s _ _ _ heard

@[simp] theorem State.seePager_clock (s : State) (pager : Nat) (l : Location) :
    (s.seePager pager l).clock = s.clock := rfl

@[simp] theorem State.takeAck_clock (s : State) (st : Nat) (r : AckRecord) : (s.takeAck st r).clock = s.clock := by
  simp [State.takeAck, apply_ite State.clock]

/-! ### The station line -/

@[simp] theorem State.dropFollowUp_clock (s : State) (st : Nat) : (s.dropFollowUp st).clock = s.clock := rfl
@[simp] theorem State.addFollowUp_clock (s : State) (st : Nat) : (s.addFollowUp st).clock = s.clock := rfl
@[simp] theorem State.voidExchange_clock (s : State) (st : Nat) : (s.voidExchange st).clock = s.clock := rfl
@[simp] theorem State.beginPoll_clock (s : State) (st : Nat) : (s.beginPoll st).clock = s.clock := rfl

@[simp] theorem State.armDue_clock (s : State) (st : Nat) : (s.armDue st).clock = s.clock := by
  unfold State.armDue
  dsimp only
  split <;> rfl

@[simp] theorem State.goSilent_clock (s : State) (st m : Nat) : (s.goSilent st m).clock = s.clock := by
  simp [State.goSilent]

@[simp] theorem State.recordMiss_clock (s : State) (st : Nat) : (s.recordMiss st).clock = s.clock := by
  unfold State.recordMiss
  dsimp only
  split <;> simp [apply_ite State.clock]

@[simp] theorem State.recordAnswer_clock (s : State) (st : Nat) : (s.recordAnswer st).clock = s.clock := by
  unfold State.recordAnswer
  dsimp only
  split <;> simp [apply_ite State.clock]

theorem State.handOnward_clock (st : Nat) (r : FloorRecord) (s : State) :
    (State.handOnward st r s).clock = s.clock := by
  cases r with
  | ack q a => exact State.takeAck_clock s st a
  | press q i => exact State.press_clock s st i

theorem State.judgeRecord_clock (st : Nat) (r : FloorRecord) (s : State) :
    (State.judgeRecord st r s).clock = s.clock := by
  simp [State.judgeRecord, apply_ite State.clock, State.handOnward_clock]

@[simp] theorem State.takeRecords_clock (s : State) (st : Nat) (resync : Bool) (newest : Byte)
    (records : List FloorRecord) : (s.takeRecords st resync newest records).clock = s.clock := by
  unfold State.takeRecords
  split
  · exact forEach_clock records _ (State.handOnward_clock st) s
  · exact forEach_clock records _ (State.judgeRecord_clock st) s

@[simp] theorem State.pollAnswered_clock (s : State) (x : Exchange) (busy more : Bool) (newest : Byte)
    (records : List FloorRecord) : (s.pollAnswered x busy more newest records).clock = s.clock := by
  unfold State.pollAnswered
  dsimp only
  split <;> simp [apply_ite State.clock]

@[simp] theorem State.burstAnswered_clock (s : State) (x : Exchange) (taken : Bool) :
    (s.burstAnswered x taken).clock = s.clock := by
  simp [State.burstAnswered, apply_ite State.clock]

@[simp] theorem State.noReply_clock (s : State) (x : Exchange) : (s.noReply x).clock = s.clock := by
  unfold State.noReply
  split <;> simp [apply_ite State.clock]

@[simp] theorem State.endExchange_clock (s : State) (x : Exchange) (reply : Option ValidReply) :
    (s.endExchange x reply).clock = s.clock := by
  unfold State.endExchange
  dsimp only
  split
  · rfl
  · split <;> simp

@[simp] theorem State.receiveReply_clock (s : State) (cs : List Char9) : (s.receiveReply cs).clock = s.clock := by
  unfold State.receiveReply
  split
  · rfl
  · split <;> simp

@[simp] theorem State.airtimeOver_clock (s : State) (st : Nat) : (s.airtimeOver st).clock = s.clock := by
  simp [State.airtimeOver]

@[simp] theorem State.beginBurst_clock (s : State) (st : Nat) : (s.beginBurst st).clock = s.clock := by
  simp [State.beginBurst, apply_ite State.clock]

/-! ### The tables, the stations and the parameters as requests change them -/

@[simp] theorem State.replaceCrew_clock (s : State) (c : Nat) (x : Crew) : (s.replaceCrew c x).clock = s.clock := by
  simp [State.replaceCrew, apply_ite State.clock]

@[simp] theorem State.changeGroup_clock (s : State) (st g : Nat) : (s.changeGroup st g).clock = s.clock := by
  simp [State.changeGroup, apply_ite State.clock]

@[simp] theorem State.leaveService_clock (s : State) (st : Nat) : (s.leaveService st).clock = s.clock := by
  simp [State.leaveService]

@[simp] theorem State.enterService_clock (s : State) (st : Nat) : (s.enterService st).clock = s.clock := by
  simp [State.enterService]

@[simp] theorem State.defineStation_clock (s : State) (st g : Nat) (v : Service) (ns : List Nat) :
    (s.defineStation st g v ns).clock = s.clock := by
  unfold State.defineStation
  dsimp only
  split <;> simp

@[simp] theorem State.redefineStation_clock (s : State) (st g : Nat) (v : Service) (ns : List Nat) :
    (s.redefineStation st g v ns).clock = s.clock := by
  simp [State.redefineStation, apply_ite State.clock]

@[simp] theorem State.removeStation_clock (s : State) (st : Nat) : (s.removeStation st).clock = s.clock := by
  simp [State.removeStation]

@[simp] theorem State.armSilence_clock (s : State) : s.armSilence.clock = s.clock := rfl

@[simp] theorem State.useParams_clock (s : State) (p : Params) : (s.useParams p).clock = s.clock := by
  simp [State.useParams, apply_ite State.clock, forEach_clock _ _ (State.restartIfChanged_clock _)]

end Sys2Proof.Machine
end

section
/-!
SUPPORT. The requests and the host link leave the site clock as it is, and with them every command but a tick and a
reset (R43).
-/

namespace Sys2Proof.Machine

/-! ### The requests -/

/-- A request leaves the site clock as it is. -/
def State.ClockStays (s : State) (a : Answer) : Prop := a.2.2.clock = s.clock

theorem clockStays_refuse (s : State) (r : Result) : s.ClockStays (s.refuse r) := rfl
theorem clockStays_answer (s : State) (b : List Byte) : s.ClockStays (s.answer b) := rfl

theorem clockStays_withOperands {α : Type} (s : State) (o : Option α) {f : α → Answer}
    (h : ∀ x, s.ClockStays (f x)) : s.ClockStays (s.withOperands o f) := by
  cases o with
  | none => rfl
  | some x => exact h x

theorem clockStays_unlessSaving {s : State} {a : Answer} (h : s.ClockStays a) : s.ClockStays (s.unlessSaving a) := by
  unfold State.unlessSaving
  split
  · rfl
  · exact h

theorem clockStays_onOpenCall (s : State) (n : Nat) {f : Call → Answer} (h : ∀ c, s.ClockStays (f c)) :
    s.ClockStays (s.onOpenCall n f) := by
  unfold State.onOpenCall
  split
  · rfl
  · split
    · rfl
    · split
      · rfl
      · exact h _

theorem clockStays_raise (p : List Byte) (s : State) : s.ClockStays (reqRaise p s) := by
  refine clockStays_withOperands s _ fun o => ?_
  split
  · rfl
  · split
    · rfl
    · split
      · rfl
      · next u hu =>
        show ((u.addCall _).startCall _ _).clock = s.clock
        rw [State.startCall_clock, State.addCall_clock, obtainSlot_clock hu]

theorem clockStays_close (s : State) (r : CloseReason) (p : List Byte) (contents : Nat → List Byte) :
    s.ClockStays (s.withOperands (readTwo p) fun n =>
      s.onOpenCall n fun _ => (s.closeCall r n).answer (contents n)) :=
  clockStays_withOperands s _ fun n => clockStays_onOpenCall s n fun _ => s.closeCall_clock r n

theorem clockStays_advance (p : List Byte) (s : State) : s.ClockStays (reqAdvance p s) :=
  clockStays_withOperands s _ fun n => clockStays_onOpenCall s n fun c => by
    split
    · exact s.advanceCall_clock n
    · rfl

theorem clockStays_direct (p : List Byte) (s : State) : s.ClockStays (reqDirect p s) :=
  clockStays_withOperands s _ fun o => clockStays_onOpenCall s o.call fun c => by
    split
    · rfl
    · split
      · rfl
      · split
        · rfl
        · exact s.directStep_clock _ _ _ _

theorem clockStays_setCallpoint (p : List Byte) (s : State) : s.ClockStays (reqSetCallpoint p s) := by
  refine clockStays_withOperands s _ fun o => clockStays_unlessSaving ?_
  split
  · unfold State.callpointDefine
    split
    · rfl
    · split
      · rfl
      · split
        · rfl
        · exact s.definePoint_clock _ _ _ _ _
  · split
    · unfold State.callpointRemove
      split
      · rfl
      · split
        · rfl
        · split <;> rfl
    · rfl

theorem clockStays_setCrew (p : List Byte) (s : State) : s.ClockStays (reqSetCrew p s) := by
  refine clockStays_withOperands s _ fun o => clockStays_unlessSaving ?_
  dsimp only
  split
  · rfl
  · split
    · rfl
    · split
      · split
        · rfl
        · exact s.replaceCrew_clock _ _
      · split
        · rfl
        · exact s.replaceCrew_clock _ _

theorem clockStays_setPool (p : List Byte) (s : State) : s.ClockStays (reqSetPool p s) := by
  refine clockStays_withOperands s _ fun o => clockStays_unlessSaving ?_
  split <;> rfl

theorem clockStays_setLadder (p : List Byte) (s : State) : s.ClockStays (reqSetLadder p s) := by
  refine clockStays_withOperands s _ fun o => clockStays_unlessSaving ?_
  split <;> rfl

theorem clockStays_setStation (p : List Byte) (s : State) : s.ClockStays (reqSetStation p s) := by
  refine clockStays_withOperands s _ fun o => clockStays_unlessSaving ?_
  split
  · unfold State.stationDefine
    split
    · rfl
    · split
      · rfl
      · split
        · exact s.redefineStation_clock _ _ _ _
        · exact s.defineStation_clock _ _ _ _
  · split
    · unfold State.stationRemove
      split
      · rfl
      · split
        · rfl
        · exact s.removeStation_clock _
    · rfl

theorem clockStays_beaconHold (p : List Byte) (s : State) : s.ClockStays (reqBeaconHold p s) := by
  refine clockStays_withOperands s _ fun o => ?_
  split
  · unfold State.beaconHold
    split
    · rfl
    · split
      · exact s.setHold_clock _ _
      · rfl
  · split
    · unfold State.beaconRelease
      split
      · exact s.setHold_clock _ _
      · rfl
    · rfl

theorem clockStays_setBeacon (p : List Byte) (s : State) : s.ClockStays (reqSetBeacon p s) := by
  refine clockStays_withOperands s _ fun o => clockStays_unlessSaving ?_
  split
  · rfl
  · split
    · rfl
    · split <;> rfl

theorem clockStays_setParams (p : List Byte) (s : State) : s.ClockStays (reqSetParams p s) :=
  clockStays_withOperands s _ fun _ => clockStays_unlessSaving (s.useParams_clock _)

theorem clockStays_store (p : List Byte) (s : State) : s.ClockStays (reqStore p s) :=
  clockStays_withOperands s _ fun _ => clockStays_unlessSaving (State.post_clock _ .part)

theorem clockStays_reset (p : List Byte) (s : State) : s.ClockStays (reqReset p s) :=
  clockStays_withOperands s _ fun _ => rfl

theorem clockStays_queries (s : State) (p : List Byte) :
    s.ClockStays (reqQueryCall p s) ∧ s.ClockStays (reqQueryCrew p s) ∧ s.ClockStays (reqQueryPool p s) ∧
    s.ClockStays (reqQueryPager p s) ∧ s.ClockStays (reqQueryLadder p s) ∧ s.ClockStays (reqQueryQueue p s) ∧
    s.ClockStays (reqQueryStation p s) := by
  refine ⟨?_, ?_, ?_, ?_, ?_, ?_, ?_⟩
  all_goals refine clockStays_withOperands s _ fun _ => ?_
  all_goals repeat' split
  all_goals rfl

theorem clockStays_serve (kind : Byte) (p : List Byte) (s : State) : s.ClockStays (serve kind p s) := by
  obtain ⟨call, crew, pool, pager, ladder, queue, station⟩ := clockStays_queries s p
  have lists : ∀ (o : Option Unit) (f : List Byte), s.ClockStays (s.withOperands o fun _ => s.answer f) :=
    fun o f => clockStays_withOperands s o fun _ => rfl
  unfold serve
  split
  · exact clockStays_raise p s
  · exact clockStays_close s .cleared p _
  · exact clockStays_close s .cancelled p _
  · exact call
  · exact lists _ _
  · exact clockStays_setCallpoint p s
  · exact clockStays_setCrew p s
  · exact clockStays_setPool p s
  · exact crew
  · exact pool
  · exact pager
  · exact clockStays_setLadder p s
  · exact ladder
  · exact clockStays_advance p s
  · exact clockStays_direct p s
  · exact lists _ _
  · exact queue
  · exact clockStays_setStation p s
  · exact station
  · exact clockStays_beaconHold p s
  · exact lists _ _
  · exact clockStays_setBeacon p s
  · exact clockStays_setParams p s
  · exact clockStays_store p s
  · exact lists _ _
  · exact clockStays_reset p s
  · rfl

/-! ### The host link and the start-up load -/

@[simp] theorem State.heardHost_clock (s : State) : s.heardHost.clock = s.clock := by
  simp [State.heardHost, apply_ite State.clock]

theorem State.takeRequest_clock (s : State) (f : RxFrame) : (s.takeRequest f).clock = s.clock :=
  clockStays_serve f.kind f.payload s

theorem State.takeFrame_clock (f : RxFrame) (s : State) : (State.takeFrame f s).clock = s.clock := by
  simp [State.takeFrame, State.actOnFrame, apply_ite State.clock, State.takeRequest_clock]

@[simp] theorem State.receiveChars_clock (s : State) (cs : List Byte) : (s.receiveChars cs).clock = s.clock := by
  unfold State.receiveChars
  split
  · rfl
  · exact forEach_clock _ _ State.takeFrame_clock _

theorem State.enterOnline_clock (s : State) : s.enterOnline.clock = s.clock := State.post_clock _ .part

@[simp] theorem State.endStore_clock (s : State) (r : StoreResult) (e : Eeprom) :
    (s.endStore r e).clock = s.clock := State.post_clock _ .part

@[simp] theorem State.freeSent_clock (s : State) (f : Frame) : (s.freeSent f).clock = s.clock := by
  unfold State.freeSent
  split <;> rfl

/-! ### The commands -/

/-- Every end of a command leaves the site clock at `x`. -/
def ClockAt (x : Tick) (o : Host.Outcome State Fault Refusal) : Prop := ∀ t, o = .next t → t.clock = x

theorem clockAt_next {x : Tick} {t : State} (h : t.clock = x) : ClockAt x (.next t) := by
  rintro _ ⟨⟩
  exact h

/-- A command that acts where its event is due, and else changes nothing. -/
theorem clockAt_ite {x : Tick} {p : Prop} [Decidable p] {t s : State} (ht : t.clock = x) (hs : s.clock = x) :
    ClockAt x (if p then .next t else .next s) := by
  split
  · exact clockAt_next ht
  · exact clockAt_next hs

/-- The commands that move the clock: a tick and the resets. -/
inductive MovesClock : Instr → Prop
  | siteClockTick : MovesClock .siteClockTick
  | powerOn : MovesClock .powerOn
  | rstnLow : MovesClock .rstnLow
  | rstnHigh : MovesClock .rstnHigh
  | frameSent (hcts : Bool) : MovesClock (.frameSent hcts)

theorem clockAt_repeatExpiry (s : State) (n : Nat) : ClockAt s.clock (execRepeatExpiry n s) := by
  unfold execRepeatExpiry
  cases s.findCall n with
  | none => exact clockAt_next rfl
  | some _ => exact clockAt_ite (by simp) rfl

theorem clockAt_stepDeadlineExpiry (s : State) (n : Nat) : ClockAt s.clock (execStepDeadlineExpiry n s) := by
  unfold execStepDeadlineExpiry
  cases s.findCall n with
  | none => exact clockAt_next rfl
  | some _ => exact clockAt_ite (by simp) rfl

theorem clockAt_arrivalExpiry (s : State) (n : Nat) : ClockAt s.clock (execArrivalExpiry n s) := by
  unfold execArrivalExpiry
  cases s.findCall n with
  | none => exact clockAt_next rfl
  | some _ => exact clockAt_ite (by simp) rfl

theorem clockAt_beaconPeriodEnd (s : State) (z : Nat) : ClockAt s.clock (execBeaconPeriodEnd z s) := by
  unfold execBeaconPeriodEnd
  cases (s.beacon z).driving with
  | none => exact clockAt_next rfl
  | some _ => exact clockAt_ite (s.beaconTick_clock z) rfl

theorem clockAt_beaconOnTimeEnd (s : State) (z : Nat) : ClockAt s.clock (execBeaconOnTimeEnd z s) := by
  unfold execBeaconOnTimeEnd
  cases (s.beacon z).driving with
  | none => exact clockAt_next rfl
  | some _ => exact clockAt_ite (s.beaconTick_clock z) rfl

theorem clockAt_replyWindowExpiry (s : State) : ClockAt s.clock (execReplyWindowExpiry s) := by
  unfold execReplyWindowExpiry
  cases s.line.exchange with
  | none => exact clockAt_next rfl
  | some _ => exact clockAt_next (by simp)

theorem clockAt_replyGapAbandon (s : State) : ClockAt s.clock (execReplyGapAbandon s) := by
  unfold execReplyGapAbandon
  cases s.line.exchange with
  | none => exact clockAt_next rfl
  | some _ => exact clockAt_next (by simp)

theorem clockAt_malformedReplyStart (s : State) (cs : List Char9) : ClockAt s.clock (execMalformedReplyStart cs s) := by
  unfold execMalformedReplyStart
  cases s.line.exchange with
  | none => exact clockAt_next rfl
  | some _ => exact clockAt_ite (by simp) rfl

theorem clockAt_storeComplete (s : State) : ClockAt s.clock (execStoreComplete s) := by
  unfold execStoreComplete
  split <;> exact clockAt_next (by simp)

theorem clockAt_storeFailed (s : State) : ClockAt s.clock (execStoreFailed s) := by
  unfold execStoreFailed
  split <;> exact clockAt_next (by simp)

theorem clockAt_pollExchangeBegin (s : State) : ClockAt s.clock (execPollExchangeBegin s) := by
  unfold execPollExchangeBegin
  split <;> exact clockAt_next (by simp)

theorem clockAt_burstExchangeBegin (s : State) : ClockAt s.clock (execBurstExchangeBegin s) := by
  unfold execBurstExchangeBegin
  split <;> exact clockAt_next (by simp)

theorem clockAt_startUpLoadEnd (s : State) (found : EepromRead) :
    ClockAt s.clock (execStartUpLoadEnd found s) := by
  unfold execStartUpLoadEnd
  split
  · exact clockAt_next ((State.sendReady_clock _).trans (State.enterOnline_clock _))
  · exact clockAt_next rfl

/-- A command that is neither a tick nor a reset leaves the site clock (R43). -/
theorem exec_clock {i : Instr} (h : ¬ MovesClock i) (s : State) : ClockAt s.clock (exec i s) := by
  cases i with
  | siteClockTick => exact absurd .siteClockTick h
  | powerOn => exact absurd .powerOn h
  | rstnLow => exact absurd .rstnLow h
  | rstnHigh => exact absurd .rstnHigh h
  | frameSent hcts => exact absurd (.frameSent hcts) h
  | startUpLoadEnd found => exact clockAt_startUpLoadEnd s found
  | repeatExpiry n => exact clockAt_repeatExpiry s n
  | stepDeadlineExpiry n => exact clockAt_stepDeadlineExpiry s n
  | arrivalExpiry n => exact clockAt_arrivalExpiry s n
  | dedupeEntryExpiry | locationExpiry => exact clockAt_next rfl
  | airtimeDeadlineExpiry st => exact clockAt_ite (by simp) rfl
  | pollDue st => exact clockAt_ite rfl rfl
  | pollExchangeBegin => exact clockAt_pollExchangeBegin s
  | burstExchangeBegin => exact clockAt_burstExchangeBegin s
  | beaconPeriodEnd z => exact clockAt_beaconPeriodEnd s z
  | beaconOnTimeEnd z => exact clockAt_beaconOnTimeEnd s z
  | silenceTimerExpiry => exact clockAt_ite (by simp) rfl
  | frameBadCheck | wrongLength => exact clockAt_next (s.receiveChars_clock _)
  | frameGap | lineBreak | characterError => exact clockAt_next (s.receiveChars_clock _)
  | hctsAsserted => exact clockAt_next (State.sendReady_clock _)
  | storeComplete => exact clockAt_storeComplete s
  | storeFailed => exact clockAt_storeFailed s
  | replyWindowExpiry => exact clockAt_replyWindowExpiry s
  | replyGapAbandon => exact clockAt_replyGapAbandon s
  | malformedReplyStart cs => exact clockAt_malformedReplyStart s cs
  | pollReply cs | burstReply cs => exact clockAt_next ((State.sendReady_clock _).trans (s.receiveReply_clock cs))
  | _ => exact clockAt_next (s.receiveChars_clock _)

/-! ### Ticks and resets -/

/-- The state of a reset: the clock at 0 and the link STARTING (R179). -/
def State.JustCleared (s : State) : Prop := s.clock = 0#24 ∧ s.link.state = .starting

theorem resetBy_justCleared (s : State) (c : Cause) (low : Bool) : (s.resetBy c low).JustCleared := ⟨rfl, rfl⟩

theorem frameSent_clock {h : Bool} {s t : State} (ht : execFrameSent h s = .next t) :
    t.clock = s.clock ∨ t.JustCleared := by
  unfold execFrameSent at ht
  split at ht
  · cases ht
    exact .inl (State.sendReady_clock _)
  · next f hf =>
    dsimp only at ht
    split at ht
    · cases ht
      exact .inr (resetBy_justCleared _ _ _)
    · cases ht
      exact .inl (by simp)

theorem tick_toNat (x : Tick) : (x + 1#24).toNat = if x.toNat = 16777215 then 0 else x.toNat + 1 := by
  have bound : x.toNat < 16777216 := x.isLt
  rw [BitVec.toNat_add]
  show (x.toNat + 1) % 16777216 = _
  split <;> omega

/-- Settles O7: a tick adds one to the clock, a reset clears it, and every other command keeps it. -/
theorem onlyTicksAndResetsMoveTheClock : Obligations.OnlyTicksAndResetsMoveTheClock := by
  refine ⟨⟨fun s up => ⟨s.setClock (s.clock + 1#24), ?_, rfl, tick_toNat s.clock⟩, fun s low => ?_⟩,
    fun i s t h => ?_⟩
  · exact if_neg (by simp [up])
  · exact if_pos low
  by_cases moves : MovesClock i
  · cases moves with
    | siteClockTick =>
      change execSiteClockTick s = .next t at h
      unfold execSiteClockTick at h
      split at h <;> cases h
      · exact .inl rfl
      · exact .inr (.inl ⟨rfl, rfl⟩)
    | powerOn =>
      cases h
      exact .inr (.inr ⟨rfl, rfl, .inl rfl⟩)
    | rstnLow =>
      change execRstnLow s = .next t at h
      unfold execRstnLow at h
      split at h <;> cases h
      · exact .inl rfl
      · exact .inr (.inr ⟨rfl, rfl, .inr (.inl rfl)⟩)
    | rstnHigh =>
      change execRstnHigh s = .next t at h
      unfold execRstnHigh at h
      split at h <;> cases h
      · exact .inr (.inr ⟨rfl, rfl, .inr (.inr (.inl rfl))⟩)
      · exact .inl rfl
    | frameSent hcts =>
      rcases frameSent_clock h with same | ⟨zero, starting⟩
      · exact .inl same
      · exact .inr (.inr ⟨zero, starting, .inr (.inr (.inr ⟨hcts, rfl⟩))⟩)
  · exact .inl (exec_clock moves s t h)

end Sys2Proof.Machine
end

section
/-!
SUPPORT. The pager directory after each of its entries is changed in its place (R96, R97), and the taking of an ACK
record: its place in the recent list (R76, R77), and the call it is matched to (R79).
-/

namespace Sys2Proof.Machine

/-! ### The directory with its entries changed in their places (5.1) -/

/-- A change of every directory entry that keeps the pagers changes what each lookup finds. -/
theorem pagerEntry?_of_directory_map {s t : State} {f : PagerEntry → PagerEntry} (keeps : ∀ e, (f e).pager = e.pager)
    (ht : t.registry.directory = s.registry.directory.map f) (p : Nat) : t.pagerEntry? p = (s.pagerEntry? p).map f := by
  have key : ((fun e : PagerEntry => decide (e.pager = p)) ∘ f) = fun e => decide (e.pager = p) :=
    funext fun e => by simp [keeps e]
  rw [State.pagerEntry?, ht, List.find?_map, key]
  rfl

/-- An entry after its ageing keeps its location while the age is below 2^23 (R97). -/
theorem ageLocation_eq (now : Tick) (e : PagerEntry) :
    ageLocation now e =
      { e with location := e.location.filter (fun l => decide ((now - l.heard).toNat < halfRange)) } := by
  obtain ⟨pager, owner, location⟩ := e
  cases location with
  | none => rfl
  | some l =>
    by_cases old : halfRange ≤ (now - l.heard).toNat
    · simp [ageLocation, Option.filter, old, -BitVec.toNat_sub]
    · simp [ageLocation, Option.filter, old, Nat.lt_of_not_le old, -BitVec.toNat_sub]

theorem ageLocation_pager (now : Tick) (e : PagerEntry) : (ageLocation now e).pager = e.pager := by
  rw [ageLocation_eq]

/-- Settles O34: both commands in place, the directory entry by entry. -/
theorem ageingForgets : Obligations.AgeingForgets := by
  refine ⟨fun s => ⟨_, rfl, fun p => ?_, rfl, List.length_map _⟩, fun s => rfl⟩
  rw [pagerEntry?_of_directory_map (ageLocation_pager s.clock) rfl p]
  exact congrArg (Option.map · _) (funext (ageLocation_eq s.clock))

/-- A directory entry once the locator has taken a position for a pager (R96). -/
def PagerEntry.seenAt (pager : Nat) (l : Location) (e : PagerEntry) : PagerEntry :=
  if e.pager = pager then { e with location := updateLocation e.location l } else e

theorem PagerEntry.seenAt_pager (pager : Nat) (l : Location) (e : PagerEntry) : (e.seenAt pager l).pager = e.pager := by
  unfold PagerEntry.seenAt
  split <;> rfl

theorem PagerEntry.seenAt_owner (pager : Nat) (l : Location) (e : PagerEntry) : (e.seenAt pager l).owner = e.owner := by
  unfold PagerEntry.seenAt
  split <;> rfl

theorem seePager_pagerEntry? (s : State) (pager : Nat) (l : Location) (p : Nat) :
    (s.seePager pager l).pagerEntry? p = (s.pagerEntry? p).map (PagerEntry.seenAt pager l) :=
  pagerEntry?_of_directory_map (PagerEntry.seenAt_pager pager l) rfl p

/-! ### The recent-acknowledgement list (4.2) -/

/-- `new` is `old` with an entry in its place by age: every entry before it as old or older, the next one younger
(R77). -/
def AckEntry.PlacedIn (now : Tick) (e : AckEntry) (old new : List AckEntry) : Prop :=
  ∃ before after, old = before ++ after ∧ new = before ++ e :: after ∧
    (∀ x ∈ before, e.age now ≤ x.age now) ∧ ∀ x ∈ after.head?, x.age now < e.age now

theorem insertAck_placedIn (now : Tick) (e : AckEntry) (acks : List AckEntry) :
    e.PlacedIn now acks (insertAck now e acks) :=
  insertAck_split now e acks

section
variable {now : Tick} {window : Nat} {e : AckEntry} {acks : List AckEntry}

theorem enterAck_of_outside (h : window < e.age now) : enterAck now window e acks = acks := if_pos h

theorem enterAck_of_room (h : e.age now ≤ window) (room : acks.length < 64) :
    enterAck now window e acks = insertAck now e acks :=
  (if_neg (Nat.not_lt.mpr h)).trans (if_pos room)

theorem enterAck_of_full (h : e.age now ≤ window) (full : 64 ≤ acks.length) :
    enterAck now window e acks =
      if acks.all (fun x => decide (x.age now < e.age now)) then acks else insertAck now e (acks.drop 1) :=
  (if_neg (Nat.not_lt.mpr h)).trans (if_neg (Nat.not_lt.mpr full))

theorem enterAck_of_full_younger (h : e.age now ≤ window) (full : 64 ≤ acks.length)
    (younger : ∀ x ∈ acks, x.age now < e.age now) : enterAck now window e acks = acks :=
  (enterAck_of_full h full).trans (if_pos (by simpa using younger))

theorem enterAck_of_full_older (h : e.age now ≤ window) (full : 64 ≤ acks.length)
    (older : ∃ x ∈ acks, e.age now ≤ x.age now) : enterAck now window e acks = insertAck now e (acks.drop 1) :=
  (enterAck_of_full h full).trans (if_neg (by simpa using older))

end

/-! ### The matching of a record (4.3) -/

/-- The entry a record makes in the recent list (R76). -/
def AckRecord.entry (now : Tick) (st : Nat) (r : AckRecord) : AckEntry := ⟨r.pager, r.call, r.kind, r.heard now, st⟩

/-- A record's age is that of its entry at the take tick (R74). -/
theorem AckRecord.entry_age (now : Tick) (st : Nat) {r : AckRecord} (h : r.age < 16777216) :
    (r.entry now st).age now = r.age := by
  show (now - (now - BitVec.ofNat 24 r.age)).toNat = r.age
  rw [sub_sub_cancel, BitVec.toNat_ofNat]
  exact Nat.mod_eq_of_lt h

/-- The state in which a record that is no duplicate is matched: the location taken and the record in the list. -/
def State.enteredAck (s : State) (st : Nat) (r : AckRecord) : State :=
  (s.seePager r.pager ⟨st, r.quality, r.heard s.clock⟩).setAcks
    (enterAck s.clock s.dedupeTicks (r.entry s.clock st) s.acks)

theorem enteredAck_pagerEntry? (s : State) (st : Nat) (r : AckRecord) (p : Nat) :
    (s.enteredAck st r).pagerEntry? p =
      (s.pagerEntry? p).map (PagerEntry.seenAt r.pager ⟨st, r.quality, r.heard s.clock⟩) :=
  seePager_pagerEntry? s _ _ p

theorem takeAck_of_duplicate {s : State} {r : AckRecord} (st : Nat)
    (dup : ∃ e ∈ s.acks, e.pager = r.pager ∧ e.call = r.call ∧ e.kind = r.kind) :
    s.takeAck st r = s.seePager r.pager ⟨st, r.quality, r.heard s.clock⟩ := by
  obtain ⟨e, he, same⟩ := dup
  exact if_pos (List.any_eq_true.mpr ⟨e, he, decide_eq_true same⟩)

theorem takeAck_of_effective {s : State} {r : AckRecord} (st : Nat)
    (new : ∀ e ∈ s.acks, ¬ (e.pager = r.pager ∧ e.call = r.call ∧ e.kind = r.kind)) :
    s.takeAck st r = (s.enteredAck st r).matchAck r (r.heard s.clock) :=
  if_neg fun dup => by
    obtain ⟨e, he, same⟩ := List.any_eq_true.mp dup
    exact new e he (of_decide_eq_true same)

section
variable {s : State} {r : AckRecord} {heard : Tick}

theorem matchAck_of_no_pager (h : s.pagerEntry? r.pager = none) : s.matchAck r heard = s := by
  simp only [State.matchAck, h]

theorem matchAck_of_no_call (h : s.findCall r.call = none) : s.matchAck r heard = s := by
  unfold State.matchAck
  split
  · rfl
  · rw [h]

theorem matchAck_of_stray_call {c : Call} (hc : s.findCall r.call = some c)
    (stray : c.state = .closed ∨ earlier heard c.raiseTick = true) : s.matchAck r heard = s := by
  unfold State.matchAck
  split
  · rfl
  · simp only [hc]
    rcases stray with closed | early
    · exact if_pos closed
    · simp only [early, if_true, ite_self]

theorem matchAck_of_matched {e : PagerEntry} {c : Call} (he : s.pagerEntry? r.pager = some e)
    (hc : s.findCall r.call = some c) (opened : c.state ≠ .closed) (late : ¬ earlier heard c.raiseTick = true) :
    s.matchAck r heard = s.applyAck r.kind c e.owner heard := by
  simp only [State.matchAck, he, hc, if_neg opened, if_neg late]

end

/-- Settles O35: a duplicate ends at the location, and any other record is entered and then matched. -/
theorem duplicateAndStrayRecordsActOnNothing : Obligations.DuplicateAndStrayRecordsActOnNothing := by
  intro s st r bound heard seen age early entered
  have entryAge : (r.entry s.clock st).age s.clock = r.age := r.entry_age s.clock st bound
  have entered_of_placed {old new} (h : (r.entry s.clock st).PlacedIn s.clock old new) : entered old new := by
    rwa [AckEntry.PlacedIn, entryAge] at h
  have early_iff (c : Call) : earlier heard c.raiseTick = true ↔ early c := decide_eq_true_iff
  have within (inside : r.age ≤ s.store.params.dedupe * 8) : (r.entry s.clock st).age s.clock ≤ s.dedupeTicks :=
    entryAge.trans_le inside
  refine ⟨takeAck_of_duplicate st, fun new => ⟨_, s.enteredAck st r, rfl, ?_, ?_, fun inside full => ⟨?_, ?_⟩, ?_, ?_⟩⟩
  · rw [← entryAge]
    exact enterAck_of_outside
  · intro inside room
    rw [enterAck_of_room (within inside) room]
    exact entered_of_placed (insertAck_placedIn _ _ _)
  · intro younger
    exact enterAck_of_full_younger (within inside) full fun x hx => (younger x hx).trans_eq entryAge.symm
  · rintro ⟨x, hx, older⟩
    rw [enterAck_of_full_older (within inside) full ⟨x, hx, entryAge.trans_le older⟩]
    exact entered_of_placed (insertAck_placedIn _ _ _)
  · intro stray
    rw [takeAck_of_effective st new]
    rcases stray with noPager | noCall | ⟨c, hc, closed | isEarly⟩
    · exact matchAck_of_no_pager (by rw [enteredAck_pagerEntry?, noPager]; rfl)
    · exact matchAck_of_no_call noCall
    · exact matchAck_of_stray_call hc (.inl closed)
    · exact matchAck_of_stray_call hc (.inr ((early_iff c).mpr isEarly))
  · intro w c hw hc opened late
    have seenEntry : (s.enteredAck st r).pagerEntry? r.pager = some (w.seenAt r.pager ⟨st, r.quality, heard⟩) := by
      rw [enteredAck_pagerEntry?, hw]
      rfl
    have applied : s.takeAck st r = (s.enteredAck st r).applyAck r.kind c w.owner heard := by
      rw [takeAck_of_effective st new, ← w.seenAt_owner r.pager ⟨st, r.quality, heard⟩]
      exact matchAck_of_matched seenEntry hc opened (mt (early_iff c).mp late)
    refine ⟨?_, ?_, ?_, ?_⟩ <;>
      · intro kind
        rw [applied, kind]
        rfl

end Sys2Proof.Machine
end

section
/-!
SUPPORT. What taking a floor record leaves of the station records: nothing but the delivering station's mark changes.
It settles O47.
-/

namespace Sys2Proof.Machine

/-! ### The escalation engine and the call book keep the station records -/

theorem Act.stations {s t : State} (a : Act s t) : t.line.stations = s.line.stations := by
  cases a with
  | change n f _ => rw [State.changeCall_line]
  | pointer | queue | withdraw | grants | bursts => rfl

theorem Acts.stations {s t : State} (a : Acts s t) : t.line.stations = s.line.stations := by
  induction a with
  | refl => rfl
  | tail _ h ih => exact h.stations.trans ih

theorem obtainSlot_stations {s u : State} (h : s.obtainSlot = some u) : u.line.stations = s.line.stations := by
  rcases obtainSlot_cases h with ⟨-, rfl⟩ | ⟨n, _, -, -, rfl⟩ <;> rfl

theorem raiseFromPoint_stations (s : State) (p : CallPoint) :
    (s.raiseFromPoint p).line.stations = s.line.stations := by
  rw [raiseFromPoint_eq]
  exact (acts_startCall _ _ _).stations.trans (congrArg Line.stations (State.post_line _ _))

theorem pressOpen_stations (s : State) (n : Nat) : (s.pressOpen n).line.stations = s.line.stations := by
  cases h : s.findCall n with
  | none => rw [pressOpen_none s n h]
  | some c =>
    rw [pressOpen_eq s n c h]
    split
    · rw [(acts_advanceCall _ n).stations, State.changeCall_line]
    · rw [State.changeCall_line]

theorem press_stations (s : State) (st i : Nat) : (s.press st i).line.stations = s.line.stations := by
  unfold State.press
  split
  · rfl
  · split
    · split
      · next hu => rw [raiseFromPoint_stations, obtainSlot_stations hu]
      · rfl
    · exact pressOpen_stations s _
    · rfl

theorem closeRecord_stations (s : State) (r : CloseReason) (c : Call) :
    (s.closeRecord r c).line.stations = s.line.stations := by
  obtain ⟨-, -, -, -, -, hmark, -⟩ :=
    markClosed_rest ((s.sendCloseNotes r c).leaveCrew? c.number c.accepting) r c.number
  obtain ⟨-, -, -, -, -, -, hleave, -⟩ := leaveCrew?_rest (s.sendCloseNotes r c) c.number c.accepting
  rw [closeRecord_eq, hmark, hleave]
  exact (acts_sendToCrews (s.withdrawPages c.number) (closeNote r c) (notedCrews r c)).stations

theorem takePress_stations (s : State) (rest : List (Nat × Nat)) :
    (s.takePress rest).line.stations = s.line.stations := by
  unfold State.takePress State.evictOldest
  split <;> rfl

theorem servePending_stations (s : State) : s.servePending.line.stations = s.line.stations := by
  cases h : s.book.pendingPresses with
  | nil => rw [servePending_nil s h]
  | cons key rest =>
    rw [servePending_cons s key rest h]
    split
    · exact takePress_stations s rest
    · rw [raiseFromPoint_stations, takePress_stations]

theorem closeCall_stations (s : State) (r : CloseReason) (n : Nat) :
    (s.closeCall r n).line.stations = s.line.stations := by
  cases h : s.findCall n with
  | none => unfold State.closeCall; rw [h]
  | some c =>
    rw [closeCall_eq s r n c h, servePending_stations, settlePoint_eq]
    exact closeRecord_stations s r c

/-! ### The acknowledgement unit keeps the station records -/

theorem acceptCall_stations (s : State) (c : Call) (crew : Nat) (heard : Tick) :
    (s.acceptCall c crew heard).line.stations = s.line.stations := by
  obtain ⟨-, hline, -⟩ := acceptRecord_rest s c crew heard
  rw [acceptCall_eq, (acts_sendToCrews _ _ _).stations]
  exact congrArg Line.stations hline

theorem acceptAsDecline_stations (s : State) (c : Call) (crew : Nat) :
    (s.acceptAsDecline c crew).line.stations = s.line.stations := by
  unfold State.acceptAsDecline
  dsimp only
  split
  · rw [(acts_engineDecline _ _ _).stations, State.post_line]
  · rw [State.post_line]

theorem lateAccept_stations (s : State) (c : Call) (crew : Nat) :
    (s.lateAccept c crew).line.stations = s.line.stations := by
  unfold State.lateAccept
  split
  · rfl
  · split
    · rfl
    · split
      · exact (acts_sendToCrews _ _ _).stations
      · rfl

theorem applyAck_stations (s : State) (kind : AckKind) (c : Call) (crew : Nat) (heard : Tick) :
    (s.applyAck kind c crew heard).line.stations = s.line.stations := by
  cases kind with
  | accept =>
    show (s.ackAccept c crew heard).line.stations = _
    unfold State.ackAccept
    split <;> simp [apply_ite State.line, apply_ite Line.stations, acceptCall_stations, acceptAsDecline_stations,
      lateAccept_stations]
  | decline =>
    show (s.ackDecline c crew).line.stations = _
    unfold State.ackDecline
    rw [apply_ite State.line, apply_ite Line.stations, (acts_engineDecline _ _ _).stations, ite_self]
  | onScene =>
    show (s.ackOnScene c crew heard).line.stations = _
    unfold State.ackOnScene
    split <;> simp [apply_ite State.line, apply_ite Line.stations, acceptCall_stations, acceptAsDecline_stations]
  | done =>
    show (s.ackDone c crew).line.stations = _
    unfold State.ackDone
    split <;> simp [apply_ite State.line, apply_ite Line.stations, closeCall_stations]

theorem matchAck_stations (s : State) (r : AckRecord) (heard : Tick) :
    (s.matchAck r heard).line.stations = s.line.stations := by
  unfold State.matchAck
  split
  · rfl
  · split
    · rfl
    · split
      · rfl
      · split
        · rfl
        · exact applyAck_stations s _ _ _ heard

theorem takeAck_stations (s : State) (st : Nat) (r : AckRecord) :
    (s.takeAck st r).line.stations = s.line.stations := by
  unfold State.takeAck
  dsimp only
  split
  · rfl
  · exact matchAck_stations _ r _

/-! ### Floor records (R143, R147) -/

/-- What a record does once it is handed onward leaves the station records alone (R147). -/
theorem handOnward_station (st : Nat) (r : FloorRecord) (s : State) (k : Nat) :
    (State.handOnward st r s).station k = s.station k := by
  have stations : (State.handOnward st r s).line.stations = s.line.stations := by
    cases r with
    | ack q a => exact takeAck_stations s st a
    | press q input => exact press_stations s st input
  unfold State.station
  rw [stations]

/-- A record is new exactly when its sequence number lies 1 to 127 after the mark (R143). -/
theorem isNew_iff (mark seq : Byte) : isNew mark seq = true ↔
    1 ≤ (seq.toNat + 256 - mark.toNat) % 256 ∧ (seq.toNat + 256 - mark.toNat) % 256 ≤ 127 := by
  have distance : (seq - mark).toNat = (seq.toNat + 256 - mark.toNat) % 256 := by bv_omega
  rw [isNew, decide_eq_true_iff, distance]

theorem not_isNew_self (mark : Byte) : ¬ isNew mark mark = true := by
  rw [isNew_iff]
  omega

theorem judgeRecord_of_new {s : State} {st : Nat} {r : FloorRecord} (new : isNew (s.station st).mark r.seq = true) :
    State.judgeRecord st r s =
      State.handOnward st r (s.putStation st { s.station st with mark := r.seq }) := if_pos new

theorem judgeRecord_of_not_new {s : State} {st : Nat} {r : FloorRecord}
    (old : ¬ isNew (s.station st).mark r.seq = true) : State.judgeRecord st r s = s := if_neg old

/-- The mark after a new record is its sequence number (R143). -/
theorem judgeRecord_mark {s : State} {st : Nat} {r : FloorRecord} (h1 : 1 ≤ st) (h2 : st ≤ 12)
    (new : isNew (s.station st).mark r.seq = true) : ((State.judgeRecord st r s).station st).mark = r.seq := by
  rw [judgeRecord_of_new new, handOnward_station, State.putStation_station_eq, if_pos ⟨rfl, h1, h2⟩]

/-- Settles O47: a new record moves the mark to itself, from which it is no longer new. -/
theorem recordsAreTakenOnce : Obligations.RecordsAreTakenOnce := by
  intro s st r h1 h2
  refine ⟨fun q a => rfl, fun q input => rfl, fun old => judgeRecord_of_not_new ?_, fun least most => ?_⟩
  · rw [isNew_iff]
    omega
  · have new := (isNew_iff _ _).mpr ⟨least, most⟩
    refine ⟨_, (State.putStation_station_eq s st st _).trans (if_pos ⟨rfl, h1, h2⟩), rfl, judgeRecord_of_new new,
      judgeRecord_of_not_new ?_⟩
    rw [judgeRecord_mark h1 h2 new]
    exact not_isNew_self _

end Sys2Proof.Machine
end

section
/-!
SUPPORT. Which station the arbiter of the line polls next, and the beginning of its poll (R136, R141, R144). It settles
O44.
-/

namespace Sys2Proof.Machine

/-! ### Due polls (R136, R141) -/

theorem execPollDue_of_due {s : State} {st : Nat} {d : Tick} (armed : (s.station st).due = some d)
    (due : (s.clock - d).toNat < 8388608) :
    execPollDue st s = .next (s.putStation st { s.station st with pollWaits := true }) :=
  if_pos ((dueAt_iff _ _).mpr ⟨d, armed, due⟩)

theorem dueAge_eq_some_iff (s : State) (st age : Nat) : s.dueAge st = some age ↔
    ∃ d, (s.station st).due = some d ∧ (s.station st).pollWaits = true ∧ (s.clock - d).toNat = age := by
  unfold State.dueAge
  cases (s.station st).due with
  | none => simp
  | some d => simp

/-- The older of the oldest due poll found so far and that of a station, the former among equals (R136). -/
def State.olderDue (s : State) (best : Option (Nat × Nat)) (st : Nat) : Option (Nat × Nat) :=
  match s.dueAge st, best with
  | none, b => b
  | some a, none => some (st, a)
  | some a, some (_, b) => if b < a then some (st, a) else best

theorem oldestDue_eq (s : State) :
    s.oldestDue = ((List.range' 1 12).foldl s.olderDue none).map Prod.fst := rfl

variable {s : State} {st age : Nat}

/-- Stations with younger due polls leave a younger one found. -/
theorem foldl_olderDue_younger {ks : List Nat} (younger : ∀ k ∈ ks, ∀ a, s.dueAge k = some a → a < age)
    {best : Option (Nat × Nat)} (h : ∀ b ∈ best, b.2 < age) : ∀ b ∈ ks.foldl s.olderDue best, b.2 < age := by
  induction ks generalizing best with
  | nil => exact h
  | cons k ks ih =>
    refine ih (fun j hj => younger j (List.mem_cons_of_mem _ hj)) fun b hb => ?_
    unfold State.olderDue at hb
    split at hb
    · exact h b hb
    · next a ha =>
      cases hb
      exact younger k List.mem_cons_self a ha
    · next a _ _ ha =>
      split at hb
      · cases hb
        exact younger k List.mem_cons_self a ha
      · exact h b hb

/-- A station with an older due poll than the one found takes its place. -/
theorem olderDue_of_older (h : s.dueAge st = some age) {best : Option (Nat × Nat)} (younger : ∀ b ∈ best, b.2 < age) :
    s.olderDue best st = some (st, age) := by
  unfold State.olderDue
  rw [h]
  cases best with
  | none => rfl
  | some b => exact if_pos (younger b rfl)

/-- Stations with no older due poll leave the one found. -/
theorem foldl_olderDue_not_older {ks : List Nat} (notOlder : ∀ k ∈ ks, ∀ a, s.dueAge k = some a → a ≤ age) :
    ks.foldl s.olderDue (some (st, age)) = some (st, age) := by
  induction ks with
  | nil => rfl
  | cons k ks ih =>
    have kept : s.olderDue (some (st, age)) k = some (st, age) := by
      unfold State.olderDue
      cases ha : s.dueAge k with
      | none => rfl
      | some a => exact if_neg (Nat.not_lt.mpr (notOlder k List.mem_cons_self a ha))
    rw [List.foldl_cons, kept]
    exact ih fun j hj => notOlder j (List.mem_cons_of_mem _ hj)

/-- The oldest due poll is that of the station before which all are younger and after which none is older (R136). -/
theorem oldestDue_of_oldest (h1 : 1 ≤ st) (h2 : st ≤ 12) (h : s.dueAge st = some age)
    (notOlder : ∀ k a, 1 ≤ k → k ≤ 12 → s.dueAge k = some a → a ≤ age)
    (younger : ∀ k a, 1 ≤ k → k < st → s.dueAge k = some a → a < age) : s.oldestDue = some st := by
  have stations : List.range' 1 12 = List.range' 1 (st - 1) ++ st :: List.range' (st + 1) (12 - st) :=
    calc List.range' 1 12
      _ = List.range' 1 (st - 1 + (13 - st)) := by rw [show st - 1 + (13 - st) = 12 by omega]
      _ = List.range' 1 (st - 1) ++ List.range' (1 + (st - 1)) (13 - st) := List.range'_append_1.symm
      _ = _ := by rw [show 1 + (st - 1) = st by omega, show 13 - st = 12 - st + 1 by omega, List.range'_succ]
  have before : ∀ b ∈ (List.range' 1 (st - 1)).foldl s.olderDue none, b.2 < age :=
    foldl_olderDue_younger (fun k hk a => by
      rw [List.mem_range'_1] at hk
      exact younger k a hk.1 (by omega)) nofun
  have after : ∀ k ∈ List.range' (st + 1) (12 - st), ∀ a, s.dueAge k = some a → a ≤ age := fun k hk a => by
    rw [List.mem_range'_1] at hk
    exact notOlder k a (by omega) (by omega)
  rw [oldestDue_eq, stations, List.foldl_append, List.foldl_cons, olderDue_of_older h before,
    foldl_olderDue_not_older after]
  rfl

/-! ### The beginning of a poll (R134, R136) -/

theorem execPollExchangeBegin_of_next (free : s.line.exchange = none) (noBurst : s.line.burstWaits = [])
    (next : s.nextPoll = some st) : execPollExchangeBegin s = .next (s.beginPoll st) := by
  unfold execPollExchangeBegin
  rw [free, noBurst, next]

theorem beginPoll_station (k : Nat) : (s.beginPoll st).station k =
    (s.putStation st { s.station st with due := none, pollWaits := false }).station k := rfl

/-- Settles O44: a follow-up is polled before any due poll, and of these the oldest. -/
theorem pollsBeginInTheirOrder : Obligations.PollsBeginInTheirOrder := by
  refine ⟨fun s st d h1 h2 armed due => ⟨_, execPollDue_of_due armed due, ?_, fun k hk => ?_, rfl⟩,
    fun s st h1 h2 free noBurst asked => ?_⟩
  · rw [State.putStation_station_eq, if_pos ⟨rfl, h1, h2⟩]
  · rw [State.putStation_station_eq, if_neg fun h => hk h.1]
  · have next : s.nextPoll = some st := by
      unfold State.nextPoll
      rcases asked with ⟨fs, followUp⟩ | ⟨noFollowUp, d, armed, waits, notOlder, younger⟩
      · rw [followUp]
      · rw [noFollowUp]
        refine oldestDue_of_oldest h1 h2 ((dueAge_eq_some_iff _ _ _).mpr ⟨d, armed, waits, rfl⟩) ?_ ?_
        · intro k a k1 k2 ha
          obtain ⟨e, he, hw, rfl⟩ := (dueAge_eq_some_iff _ _ _).mp ha
          exact notOlder k e k1 k2 he hw
        · intro k a k1 k2 ha
          obtain ⟨e, he, hw, rfl⟩ := (dueAge_eq_some_iff _ _ _).mp ha
          exact younger k e k1 k2 he hw
    refine ⟨_, execPollExchangeBegin_of_next free noBurst next, ?_, fun k hk => ?_, rfl, rfl, fun e k he => ?_, rfl⟩
    · rw [beginPoll_station, State.putStation_station_eq, if_pos ⟨rfl, h1, h2⟩]
    · rw [beginPoll_station, State.putStation_station_eq, if_neg fun h => hk h.1]
    · cases he
      rfl

end Sys2Proof.Machine
end

section
/-!
SUPPORT. The characters of the station line from their bits on, and the reading of the messages they make up (R130,
R132, R133, R188, R193, R194). It settles O45.
-/

namespace Sys2Proof.Machine

/-! ### Characters and their bits (R130, R193) -/

@[simp] theorem dataBits_dataChar (b : Byte) : dataBits (dataChar b) = b :=
  BitVec.setWidth_setWidth_of_le b (by decide) |>.trans (BitVec.setWidth_eq b)

theorem dataBits_toNat (c : Char9) : (dataBits c).toNat = c.toNat % 256 := BitVec.toNat_setWidth 8 c

theorem dataChar_toNat (b : Byte) : (dataChar b).toNat = b.toNat :=
  BitVec.toNat_setWidth_of_le (by decide)

theorem isAddress_iff (c : Char9) : isAddress c = true ↔ 256 ≤ c.toNat := by
  rw [isAddress, BitVec.msb_eq_decide, decide_eq_true_iff]

@[simp] theorem isAddress_dataChar (b : Byte) : isAddress (dataChar b) = false := by
  rw [Bool.eq_false_iff, ne_eq, isAddress_iff, dataChar_toNat]
  omega

theorem addressKind_eq (c : Char9) : addressKind c = c.toNat / 16 % 16 := by
  rw [addressKind, dataBits_toNat]
  omega

theorem addressStation_eq (c : Char9) : addressStation c = c.toNat % 16 := by
  rw [addressStation, dataBits_toNat]
  omega

theorem addressChar_toNat {kind station : Nat} (hk : kind < 16) (hs : station < 16) :
    (addressChar kind station).toNat = 256 + kind * 16 + station := by
  rw [addressChar, BitVec.toNat_ofNat]
  omega

theorem dataBits_addressChar {kind station : Nat} (hk : kind < 16) (hs : station < 16) :
    dataBits (addressChar kind station) = BitVec.ofNat 8 (16 * kind + station) := by
  apply BitVec.eq_of_toNat_eq
  rw [dataBits_toNat, addressChar_toNat hk hs, BitVec.toNat_ofNat]
  omega

/-- A command in characters (R188, R193). -/
theorem commandChars_eq {kind station : Nat} (hk : kind < 16) (hs : station < 16) (contents : List Byte) :
    commandChars kind station contents = BitVec.ofNat 9 (256 + 16 * kind + station) ::
      (contents ++ encCheck (crc (BitVec.ofNat 8 (16 * kind + station) :: contents))).map (BitVec.setWidth 9) := by
  rw [← dataBits_addressChar hk hs, Nat.mul_comm 16 kind]
  rfl

theorem encCheck_inj {r r' : BitVec 16} : encCheck r = encCheck r' ↔ r = r' := by
  refine ⟨fun h => BitVec.eq_of_toNat_eq ?_, congrArg encCheck⟩
  simp only [encCheck, enc2, List.cons.injEq, and_true, ← BitVec.toNat_inj, BitVec.toNat_ofNat] at h
  omega

/-- The bit times of a character on the line one by one: start bit, data bits, stop bit (R130). -/
theorem lineBits_levels (c : Char9) : (lineBits c)[0]? = some .space ∧ (lineBits c)[10]? = some .mark ∧
    ∀ i, i < 9 → (lineBits c)[1 + i]? = some (if c.getLsbD i then .mark else .space) := by
  refine ⟨rfl, rfl, fun i hi => ?_⟩
  rw [Nat.add_comm, lineBits, charLevels, List.getElem?_cons_succ, List.getElem?_append_left (by simpa using hi),
    List.getElem?_map, List.getElem?_range hi]
  rfl

/-- Characters are read one run of levels after another. -/
theorem readSrxd_append (r : CharReader) (ls more : List LineLevel) : readSrxd r (ls ++ more) =
    ((readSrxd r ls).1 ++ (readSrxd (readSrxd r ls).2 more).1, (readSrxd (readSrxd r ls).2 more).2) := by
  simp only [readSrxd, readLevels_append, List.filterMap_append]

/-- The mark level of an idle line brings no character. -/
theorem readSrxd_mark (n : Nat) : readSrxd .idle (List.replicate n .mark) = ([], .idle) := by
  induction n with
  | zero => rfl
  | succ n ih => exact ih

/-- Characters on the line, with any idle time before each, are read back (R130). -/
theorem readSrxd_chars (cs : List (Nat × Char9)) :
    readSrxd .idle (cs.flatMap fun x => List.replicate x.1 .mark ++ lineBits x.2) = (cs.map Prod.snd, .idle) := by
  induction cs with
  | nil => rfl
  | cons x xs ih =>
    simp only [List.flatMap_cons, readSrxd_append, readSrxd_mark, readSrxd_lineBits, ih]
    rfl

/-- Characters without gaps on the line act as the reply they make up (R130, R132). -/
theorem receiveLine_lineBits (s : State) (chars : List Char9) :
    s.receiveLine (chars.flatMap lineBits) = (s.receiveReply chars).sendReady := by
  have read : readSrxd .idle (chars.flatMap lineBits) = (chars, .idle) := by
    have spaced := readSrxd_chars (chars.map fun c => (0, c))
    rw [List.flatMap_map, List.map_map] at spaced
    exact spaced.trans (congrArg (·, CharReader.idle) (List.map_id chars))
  rw [State.receiveLine, read]

/-! ### The shape of a reply (R132, R194) -/

theorem completeAt_cons (n : Nat) (a : Char9) (rest : List Char9) : completeAt (n + 1) (a :: rest) =
    if rest.length < n then .incomplete else .complete (a :: rest.take n) := by
  simp [completeAt]

section
variable {a : Char9} {rest : List Char9}

theorem replyShape_of_data (h : a.toNat < 256) : replyShape (a :: rest) = .malformed := by
  have data : isAddress a = false := Bool.eq_false_iff.mpr fun k => Nat.not_le.mpr h ((isAddress_iff a).mp k)
  simp [replyShape, data]

theorem replyShape_of_address (h : 256 ≤ a.toNat) : replyShape (a :: rest) =
    if a.toNat / 16 % 16 = 10 then completeAt 5 (a :: rest)
    else if a.toNat / 16 % 16 = 9 then
      (rest[2]?).elim .incomplete fun n =>
        if 8 < n.toNat % 256 then .malformed else completeAt (6 + 9 * (n.toNat % 256)) (a :: rest)
    else .malformed := by
  simp only [replyShape, (isAddress_iff a).mpr h, addressKind_eq, dataBits_toNat]
  cases rest[2]? <;> rfl

theorem replyShape_of_burst (h : 256 ≤ a.toNat) (kind : a.toNat / 16 % 16 = 10) : replyShape (a :: rest) =
    if rest.length < 4 then .incomplete else .complete (a :: rest.take 4) := by
  rw [replyShape_of_address h, if_pos kind, completeAt_cons]

theorem replyShape_of_poll (h : 256 ≤ a.toNat) (kind : a.toNat / 16 % 16 = 9) {n : Char9} (count : rest[2]? = some n)
    (few : n.toNat % 256 ≤ 8) : replyShape (a :: rest) =
      if rest.length < 5 + 9 * (n.toNat % 256) then .incomplete
      else .complete (a :: rest.take (5 + 9 * (n.toNat % 256))) := by
  rw [replyShape_of_address h, if_neg (by omega), if_pos kind, count, Option.elim_some, if_neg (Nat.not_lt.mpr few),
    show 6 + 9 * (n.toNat % 256) = 5 + 9 * (n.toNat % 256) + 1 by omega, completeAt_cons]

theorem replyShape_of_malformed (h : a.toNat < 256 ∨ a.toNat / 16 % 16 ≠ 9 ∧ a.toNat / 16 % 16 ≠ 10 ∨
    a.toNat / 16 % 16 = 9 ∧ ∃ n, rest[2]? = some n ∧ 8 < n.toNat % 256) :
    replyShape (a :: rest) = .malformed := by
  by_cases address : 256 ≤ a.toNat
  · rw [replyShape_of_address address]
    rcases h with data | ⟨notPoll, notBurst⟩ | ⟨poll, n, count, many⟩
    · omega
    · rw [if_neg notBurst, if_neg notPoll]
    · rw [if_neg (by omega), if_pos poll, count, Option.elim_some, if_pos many]
  · exact replyShape_of_data (by omega)

end

/-! ### The floor records of a reply (R133, R193) -/

/-- The record that nine characters carry; none for another number of characters. -/
def readNine : List Byte → Option FloorRecord
  | [q, t, a, b, c, d, e, f, g] => readRecord q t a b c d e f g
  | _ => none

theorem readRecords_nine {nine : List Byte} (h : nine.length = 9) (rest : List Byte) :
    readRecords (nine ++ rest) = (readNine nine).bind fun r => (readRecords rest).map (r :: ·) := by
  match nine, h with
  | [q, t, a, b, c, d, e, f, g], _ =>
    simp only [List.cons_append, List.nil_append, readRecords, readNine]
    cases readRecord q t a b c d e f g with
    | none => rfl
    | some r => cases readRecords rest <;> rfl

/-- Records after which the reading fails make it fail. -/
theorem readRecords_append_none {rest : List Byte} (h : readRecords rest = none) (n : Nat) {before : List Byte}
    (length : before.length = 9 * n) : readRecords (before ++ rest) = none := by
  induction n generalizing before with
  | zero => rwa [List.eq_nil_of_length_eq_zero length]
  | succ n ih =>
    have first : (before.take 9).length = 9 := by rw [List.length_take]; omega
    have others : (before.drop 9).length = 9 * n := by rw [List.length_drop]; omega
    rw [← List.take_append_drop 9 before, List.append_assoc, readRecords_nine first, ih others]
    cases readNine (before.take 9) <;> rfl

/-- The characters of a record, with those that a PRESS leaves without meaning (R193). -/
def recordChars (r : FloorRecord × List Byte) : List Byte :=
  match r.1 with
  | .ack q a => [q, 0#8] ++ enc2 a.pager ++ enc2 a.call ++
      [BitVec.ofNat 8 a.kind.code, BitVec.ofNat 8 a.quality, BitVec.ofNat 8 a.age]
  | .press q input => [q, 1#8, BitVec.ofNat 8 input] ++ r.2

/-- A record whose values a station can send, with six characters for a PRESS to leave without meaning (R193, R194). -/
def RecordFits (r : FloorRecord × List Byte) : Prop :=
  match r.1 with
  | .ack _ a => 1 ≤ a.pager ∧ a.pager ≤ 4095 ∧ a.call < 65536 ∧ a.quality ≤ 15 ∧ a.age < 256
  | .press _ input => 1 ≤ input ∧ input ≤ 4 ∧ r.2.length = 6

theorem recordChars_length {r : FloorRecord × List Byte} (h : RecordFits r) : (recordChars r).length = 9 := by
  obtain ⟨r, disregarded⟩ := r
  cases r with
  | ack q a => rfl
  | press q input =>
    obtain ⟨-, -, six⟩ := h
    simpa [recordChars] using six

theorem AckKind.ofCode_code (k : AckKind) : AckKind.ofCode (BitVec.ofNat 8 k.code).toNat = some k := by
  cases k <;> rfl

theorem readNine_ack (q : Byte) {a : AckRecord} (h : 1 ≤ a.pager ∧ a.pager ≤ 4095) (hcall : a.call < 65536)
    (hquality : a.quality ≤ 15) (hage : a.age < 256) : readNine (recordChars (.ack q a, [])) = some (.ack q a) := by
  show readRecord q 0#8 _ _ _ _ _ _ _ = _
  rw [readRecord, if_pos rfl, AckKind.ofCode_code, dec2_enc2 (by omega), dec2_enc2 hcall, toNat_count (by omega),
    toNat_count hage]
  exact if_pos ⟨h.1, h.2, hquality⟩

theorem readRecord_press (q b c d e f g : Byte) {input : Nat} (h : 1 ≤ input ∧ input ≤ 4) :
    readRecord q 1#8 (BitVec.ofNat 8 input) b c d e f g = some (.press q input) := by
  rw [readRecord, if_neg (by decide), if_pos rfl, toNat_count (by omega), if_pos h]

/-- A record is read from its characters as what it is, whatever a PRESS leaves without meaning (R133). -/
theorem readNine_recordChars {r : FloorRecord × List Byte} (h : RecordFits r) :
    readNine (recordChars r) = some r.1 := by
  obtain ⟨r, disregarded⟩ := r
  cases r with
  | ack q a =>
    obtain ⟨p1, p2, hcall, hquality, hage⟩ := h
    exact readNine_ack q ⟨p1, p2⟩ hcall hquality hage
  | press q input =>
    obtain ⟨i1, i2, six⟩ := h
    match disregarded, six with
    | [b, c, d, e, f, g], _ => exact readRecord_press q b c d e f g ⟨i1, i2⟩

/-- Records are read back in their order (R133). -/
theorem readRecords_flatMap {rs : List (FloorRecord × List Byte)} (h : ∀ r ∈ rs, RecordFits r) :
    readRecords (rs.flatMap recordChars) = some (rs.map Prod.fst) := by
  induction rs with
  | nil => rfl
  | cons r rs ih =>
    have fits := h r List.mem_cons_self
    rw [List.flatMap_cons, readRecords_nine (recordChars_length fits), readNine_recordChars fits,
      ih fun k hk => h k (List.mem_cons_of_mem _ hk)]
    rfl

theorem flatMap_recordChars_length {rs : List (FloorRecord × List Byte)} (h : ∀ r ∈ rs, RecordFits r) :
    (rs.flatMap recordChars).length = 9 * rs.length := by
  induction rs with
  | nil => rfl
  | cons r rs ih =>
    rw [List.flatMap_cons, List.length_append, recordChars_length (h r List.mem_cons_self),
      ih fun k hk => h k (List.mem_cons_of_mem _ hk), List.length_cons]
    omega

theorem AckKind.ofCode_of_gt {n : Nat} (h : 3 < n) : AckKind.ofCode n = none := by
  match n, h with
  | n + 4, _ => rfl

/-- A record whose type or values no station may send (R133, R194). -/
theorem readRecord_none {q type a b c d e f g : Byte} (h : 1 < type.toNat ∨
    type = 0#8 ∧ (a.toNat * 256 + b.toNat = 0 ∨ 4095 < a.toNat * 256 + b.toNat ∨ 3 < e.toNat ∨ 15 < f.toNat) ∨
    type = 1#8 ∧ (a.toNat = 0 ∨ 4 < a.toNat)) : readRecord q type a b c d e f g = none := by
  rcases h with other | ⟨rfl, wrong⟩ | ⟨rfl, wrong⟩
  · have unlike {v : Byte} (small : v.toNat ≤ 1) : type ≠ v := by
      rintro rfl
      omega
    rw [readRecord, if_neg (unlike (by decide)), if_neg (unlike (by decide))]
  · rw [readRecord, if_pos rfl]
    split
    · rfl
    · next k known =>
      have code : e.toNat ≤ 3 := Nat.le_of_not_lt fun unknown => by
        rw [AckKind.ofCode_of_gt unknown] at known
        cases known
      exact if_neg (by unfold dec2; omega)
  · rw [readRecord, if_neg (by decide), if_pos rfl, if_neg (by omega)]

/-! ### Whole replies (R133, R193) -/

theorem readContents_poll {x : Exchange} (poll : x.kind = .poll) (status newest count : Byte) (recs : List Byte) :
    readContents x (status :: newest :: count :: recs) =
      (readRecords recs).map (.poll (status.getLsbD 0) (status.getLsbD 1) newest) := by
  simp only [readContents, poll]
  cases readRecords recs <;> rfl

theorem readContents_burst {x : Exchange} (burst : x.kind = .burst) (id outcome : Byte) :
    readContents x [id, outcome] =
      if id = x.burstId ∧ outcome = 0#8 then some (.burst true)
      else if id = x.burstId ∧ outcome = 1#8 then some (.burst false) else none := by
  simp only [readContents, burst]

/-- A complete reply is read as its contents are when its address and its check are those expected (R133). -/
theorem readReply_message (x : Exchange) (a : Char9) (contents : List Byte) (check : BitVec 16) :
    readReply x (a :: (contents ++ encCheck check).map dataChar) =
      if isAddress a = true ∧ addressStation a = x.station ∧ addressKind a = x.kind.replyCode ∧
          check = crc (dataBits a :: contents) then readContents x contents else none := by
  have data : ((contents ++ encCheck check).map dataChar).map dataBits = contents ++ encCheck check := by
    simp [Function.comp_def]
  have noAddress : ((contents ++ encCheck check).map dataChar).all (fun c => !isAddress c) = true := by
    simp [Function.comp_def]
  have count : (contents ++ encCheck check).length - 2 = contents.length := by
    rw [List.length_append, encCheck_length, Nat.add_sub_cancel]
  simp only [readReply, data, noAddress, count, List.take_left, List.drop_left, encCheck_inj, true_and]

theorem readReply_of_bad_contents {x : Exchange} {contents : List Byte} (h : readContents x contents = none)
    (kind station : Nat) : readReply x (commandChars kind station contents) = none := by
  rw [commandChars, readReply_message, h, ite_self]

theorem readReply_of_wrong_check (x : Exchange) (a : Char9) {contents : List Byte} {check : BitVec 16}
    (wrong : check ≠ crc (dataBits a :: contents)) :
    readReply x (a :: (contents ++ encCheck check).map dataChar) = none := by
  rw [readReply_message]
  exact if_neg fun ⟨_, _, _, right⟩ => wrong right

/-- A message of the station and the kind asked is read as its contents are (R133). -/
theorem readReply_commandChars {x : Exchange} (h2 : x.station ≤ 12) (contents : List Byte) :
    readReply x (commandChars x.kind.replyCode x.station contents) = readContents x contents := by
  have code : x.kind.replyCode < 16 := by cases x.kind <;> decide
  have address := addressChar_toNat code (show x.station < 16 by omega)
  rw [commandChars, readReply_message]
  refine if_pos ⟨(isAddress_iff _).mpr ?_, (addressStation_eq _).trans ?_, (addressKind_eq _).trans ?_, rfl⟩
  · omega
  · omega
  · omega

theorem readReply_of_misfit {x : Exchange} {a : Char9} {rest : List Char9}
    (h : a.toNat < 256 ∨ (∃ c ∈ rest, 256 ≤ c.toNat) ∨ a.toNat % 16 ≠ x.station ∨
      a.toNat / 16 % 16 ≠ x.kind.replyCode) : readReply x (a :: rest) = none := by
  refine if_neg fun ⟨address, data, station, kind, _⟩ => ?_
  rw [isAddress_iff] at address
  rw [addressStation_eq] at station
  rw [addressKind_eq] at kind
  rcases h with notAddress | ⟨c, hc, later⟩ | otherStation | otherKind
  · omega
  · have := List.all_eq_true.mp data c hc
    rw [(isAddress_iff c).mpr later] at this
    exact absurd this (by decide)
  · exact otherStation station
  · exact otherKind kind

/-- A poll reply is complete at its length, and is read as the records it carries (R133, R194). -/
theorem readReply_poll {x : Exchange} (poll : x.kind = .poll) (h2 : x.station ≤ 12) (status newest : Byte)
    {rs : List (FloorRecord × List Byte)} (few : rs.length ≤ 8) (fits : ∀ r ∈ rs, RecordFits r) :
    let cs := commandChars 9 x.station ([status, newest, BitVec.ofNat 8 rs.length] ++ rs.flatMap recordChars)
    replyShape cs = .complete cs ∧
      readReply x cs = some (.poll (status.getLsbD 0) (status.getLsbD 1) newest (rs.map Prod.fst)) := by
  intro cs
  constructor
  · have address := addressChar_toNat (show 9 < 16 by decide) (show x.station < 16 by omega)
    have count : (dataChar (BitVec.ofNat 8 rs.length)).toNat % 256 = rs.length := by
      rw [dataChar_toNat, toNat_count (by omega), Nat.mod_eq_of_lt (by omega)]
    refine (replyShape_of_poll (n := dataChar (BitVec.ofNat 8 rs.length)) (by omega) (by omega) rfl (by omega)).trans ?_
    have length (r : BitVec 16) : ((([status, newest, BitVec.ofNat 8 rs.length] ++ rs.flatMap recordChars) ++
        encCheck r).map dataChar).length = 5 + 9 * rs.length := by
      simp only [List.length_map, List.length_append, flatMap_recordChars_length fits, encCheck_length,
        List.length_cons, List.length_nil]
      omega
    rw [count, length, if_neg (Nat.lt_irrefl _), List.take_of_length_le (length _).le]
    rfl
  · have code : x.kind.replyCode = 9 := by rw [poll]; rfl
    show readReply x (commandChars 9 x.station _) = _
    rw [← code, readReply_commandChars h2, List.cons_append, List.cons_append, List.cons_append, List.nil_append,
      readContents_poll poll, readRecords_flatMap fits]
    rfl

/-- A burst reply is complete at five characters, and is read as TAKEN or REFUSED (R133, R194). -/
theorem readReply_burst {x : Exchange} (burst : x.kind = .burst) (h2 : x.station ≤ 12) (taken : Bool) :
    let cs := commandChars 10 x.station [x.burstId, if taken then 0#8 else 1#8]
    replyShape cs = .complete cs ∧ readReply x cs = some (.burst taken) := by
  intro cs
  constructor
  · have address := addressChar_toNat (show 10 < 16 by decide) (show x.station < 16 by omega)
    exact replyShape_of_burst (by omega) (by omega)
  · have code : x.kind.replyCode = 10 := by rw [burst]; rfl
    show readReply x (commandChars 10 x.station _) = _
    rw [← code, readReply_commandChars h2, readContents_burst burst]
    cases taken <;> simp

theorem readContents_burst_none {x : Exchange} (burst : x.kind = .burst) {id outcome : Byte}
    (h : id ≠ x.burstId ∨ 1 < outcome.toNat) : readContents x [id, outcome] = none := by
  rw [readContents_burst burst]
  rcases h with otherId | otherOutcome
  · rw [if_neg fun h => otherId h.1, if_neg fun h => otherId h.1]
  · have unlike {v : Byte} (small : v.toNat ≤ 1) : outcome ≠ v := by
      rintro rfl
      omega
    rw [if_neg fun h => unlike (by decide) h.2, if_neg fun h => unlike (by decide) h.2]

/-- A poll reply with a malformed record is malformed, wherever the record stands (R133). -/
theorem readContents_poll_none {x : Exchange} (poll : x.kind = .poll) (status newest count : Byte)
    {before nine : List Byte} (whole : before.length % 9 = 0) (length : nine.length = 9) (bad : readNine nine = none)
    (after : List Byte) : readContents x ([status, newest, count] ++ before ++ nine ++ after) = none := by
  have fails : readRecords (nine ++ after) = none := by
    rw [readRecords_nine length, bad]
    rfl
  rw [List.append_assoc, List.append_assoc]
  show readContents x (status :: newest :: count :: (before ++ (nine ++ after))) = none
  rw [readContents_poll poll, readRecords_append_none fails (before.length / 9) (by omega)]
  rfl

/-- Settles O45: each reply by its shape and its contents, down to the bits of its characters. -/
theorem repliesAreReadAsSent : Obligations.RepliesAreReadAsSent := by
  refine ⟨?_, fun x taken burst _ h2 => readReply_burst burst h2 taken, ?_,
    fun x a contents check wrong => readReply_of_wrong_check x a wrong,
    fun x id outcome burst h => readReply_of_bad_contents (readContents_burst_none burst h) 10 x.station, ?_, rfl,
    fun a rest => ⟨replyShape_of_malformed, replyShape_of_burst, fun h kind short => ?_,
      fun n h kind => replyShape_of_poll h kind⟩,
    fun c => ⟨lineBits_length c, lineBits_levels c⟩, readSrxd_chars, fun s chars => ?_,
    fun kind station contents hk hs => commandChars_eq hk hs contents⟩
  · rintro x status newest rs recs poll - h2 few rfl fits
    exact readReply_poll poll h2 status newest few fits
  · intro x a rest h
    refine readReply_of_misfit ?_
    cases hx : x.kind <;> simpa [hx, ExchangeKind.replyCode] using h
  · intro x status newest count q type a b c d e f g before after poll whole bad
    exact readReply_of_bad_contents
      (readContents_poll_none poll status newest count (nine := [q, type, a, b, c, d, e, f, g]) whole rfl
        (readRecord_none bad) after) 9 x.station
  · rw [replyShape_of_address h, if_neg (by omega), if_pos kind, short]
    rfl
  · rw [receiveLine_lineBits]
    exact ⟨rfl, rfl⟩

end Sys2Proof.Machine
end

section
/-!
SUPPORT. The beacon unit as an equation: what it makes of a beacon whose hold or holders were written (R154, R155,
R157), and of the beacons when a call changes. Every act of the unit is `State.settles`.
-/

namespace Sys2Proof.Machine

/-! ### The class that is called for (R155) -/

theorem higherClass_eq_or (a b : Cls) : higherClass a b = a ∨ higherClass a b = b := by
  unfold higherClass
  split
  · exact .inr rfl
  · exact .inl rfl

theorem rank_le_higherClass (a b : Cls) : a.rank ≤ (higherClass a b).rank ∧ b.rank ≤ (higherClass a b).rank := by
  unfold higherClass
  split <;> omega

/-- With a hold there is a highest class: one of those given, and none of them is higher. -/
theorem highestClass_some (d : Cls) (xs : List Cls) : ∃ k, highestClass (some d) xs = some k ∧ (k = d ∨ k ∈ xs) ∧
    d.rank ≤ k.rank ∧ ∀ j ∈ xs, j.rank ≤ k.rank := by
  induction xs generalizing d with
  | nil => exact ⟨d, rfl, .inl rfl, Nat.le_refl _, nofun⟩
  | cons x xs ih =>
    obtain ⟨k, hk, among, above, most⟩ := ih (higherClass d x)
    obtain ⟨hd, hx⟩ := rank_le_higherClass d x
    refine ⟨k, hk, ?_, hd.trans above, fun j hj => ?_⟩
    · rcases among with rfl | h
      · exact (higherClass_eq_or d x).imp_right fun e => List.mem_cons.mpr (.inl e)
      · exact .inr (List.mem_cons_of_mem _ h)
    · rcases List.mem_cons.mp hj with rfl | h
      · exact hx.trans above
      · exact most j h

/-- The class that a manual hold and the calls of these numbers call for (R155). -/
def State.asked (s : State) (hold : Option Cls) (holders : List Nat) : Option Cls :=
  highestClass hold (holders.filterMap fun n => (s.findCall n).map Call.cls)

theorem wantedClass_eq_asked (s : State) (z : Nat) :
    s.wantedClass z = s.asked (s.beacon z).hold (s.beacon z).holders := rfl

theorem mem_holderClasses (s : State) (holders : List Nat) (k : Cls) :
    k ∈ holders.filterMap (fun n => (s.findCall n).map Call.cls) ↔
      ∃ n ∈ holders, ∃ c, s.findCall n = some c ∧ c.cls = k := by
  simp only [List.mem_filterMap, Option.map_eq_some_iff]

/-- The class called for is the highest of the hold and the holders' classes (R155). -/
theorem topClass_asked (s : State) (hold : Option Cls) (holders : List Nat) :
    s.TopClass hold holders (s.asked hold holders) := by
  have among := mem_holderClasses s holders
  unfold State.asked
  generalize holders.filterMap (fun n => (s.findCall n).map Call.cls) = xs at among
  have top : ∀ d ys, (∀ j, (hold = some j ∨ j ∈ xs) ↔ j = d ∨ j ∈ ys) →
      s.TopClass hold holders (highestClass (some d) ys) := fun d ys same => by
    obtain ⟨k, hk, one, above, most⟩ := highestClass_some d ys
    rw [hk]
    refine ⟨((same k).mpr one).imp_right (among k).mp, fun j hj => ?_⟩
    rcases (same j).mp (hj.imp_right (among j).mpr) with rfl | h
    · exact above
    · exact most j h
  cases hold with
  | some d => exact top d xs fun j => by rw [Option.some.injEq, eq_comm]
  | none =>
    cases xs with
    | nil =>
      intro k hk
      rcases hk with h | h
      · cases h
      · cases (among k).mpr h
    | cons x xs => exact top x xs fun j => by simp

/-- Another state in which the holders' numbers name calls of the same classes calls for the same class. -/
theorem asked_congr {s t : State} (hold : Option Cls) {holders : List Nat}
    (h : ∀ n ∈ holders, (t.findCall n).map Call.cls = (s.findCall n).map Call.cls) :
    t.asked hold holders = s.asked hold holders :=
  congrArg (highestClass hold) (List.filterMap_congr h)

/-! ### A beacon that settles (R157) -/

theorem Level.out_eq (v : Level) : v.out = if v = .low then .low else .high := by cases v <;> rfl
theorem Level.active_eq (v : Level) : v.active = if v = .low then .high else .low := by cases v <;> rfl

variable (b : Beacon) (w : Option Cls) (pattern : PerClass Pattern) (now : Tick)

/-- A beacon that settles at rest. -/
theorem Beacon.settled_none : b.settled none pattern now = if b.driving = none then b else
    { b with driving := none, output := b.idle.out } := by
  rw [Level.out_eq]; rfl

/-- A beacon that settles at a class. -/
theorem Beacon.settled_some (k : Cls) : b.settled (some k) pattern now =
    if b.driving.map Driving.cls = some k then b else
      { b with
        driving := some ⟨k, (pattern.get k).period, (pattern.get k).onTime, now⟩
        output := b.idle.active } := by
  rw [Level.active_eq]; rfl

/-- Settling writes the drive and the output alone. -/
theorem Beacon.settled_rest : (b.settled w pattern now).holders = b.holders ∧
    (b.settled w pattern now).hold = b.hold ∧ (b.settled w pattern now).idle = b.idle := by
  cases w with
  | none => rw [Beacon.settled_none]; split <;> exact ⟨rfl, rfl, rfl⟩
  | some k => rw [Beacon.settled_some]; split <;> exact ⟨rfl, rfl, rfl⟩

@[simp] theorem Beacon.settled_holders : (b.settled w pattern now).holders = b.holders :=
  (b.settled_rest w pattern now).1

@[simp] theorem Beacon.settled_hold : (b.settled w pattern now).hold = b.hold :=
  (b.settled_rest w pattern now).2.1

/-- A beacon that has settled drives with the class it settled at. -/
@[simp] theorem Beacon.settled_driving : (b.settled w pattern now).driving.map Driving.cls = w := by
  cases w with
  | none =>
    rw [Beacon.settled_none]
    split
    · next rests => rw [rests]; rfl
    · rfl
  | some k =>
    rw [Beacon.settled_some]
    split
    · assumption
    · rfl

/-! ### An act of the beacon unit -/

theorem beacon_congr {s t : State} (h : t.beacons = s.beacons) (z : Nat) : t.beacon z = s.beacon z :=
  congrArg (fun bs => row bs z Beacon.released) h

theorem putBeacon_self (s : State) (z : Nat) : s.putBeacon z (s.beacon z) = s := by
  unfold State.putBeacon State.beacon
  rw [setRow_row]
  rfl

/-- The beacon unit settles the beacon at the class that is called for (R157). -/
theorem actBeacon_eq (s : State) (z : Nat) : s.actBeacon z =
    s.putBeacon z ((s.beacon z).settled (s.wantedClass z) s.store.params.pattern s.clock) := by
  unfold State.actBeacon
  dsimp only
  cases hw : s.wantedClass z with
  | none =>
    rw [Beacon.settled_none]
    cases hd : (s.beacon z).driving with
    | none => rw [if_pos rfl, putBeacon_self]
    | some d => rw [if_neg nofun]
  | some k =>
    rw [Beacon.settled_some]
    cases hd : (s.beacon z).driving with
    | none => rw [if_neg nofun]; rfl
    | some d =>
      simp only [Option.map_some, Option.some.injEq, apply_ite (s.putBeacon z), putBeacon_self]
      rfl

/-- What the beacon unit makes of beacon `b` in state `s`: it settles as its hold and holders call for. -/
def State.settles (s : State) (b : Beacon) : Beacon :=
  b.settled (s.asked b.hold b.holders) s.store.params.pattern s.clock

/-- The beacons after one of them was written and the unit acted on it. -/
theorem act_putBeacon_beacon (s : State) (z k : Nat) (b : Beacon) : ((s.putBeacon z b).actBeacon z).beacon k =
    if k = z ∧ 1 ≤ z ∧ z ≤ 8 then s.settles b else s.beacon k := by
  rw [actBeacon_eq, State.putBeacon_beacon_eq]
  split
  · next h =>
    have written : (s.putBeacon z b).beacon z = b := (State.putBeacon_beacon_eq s z z b).trans (if_pos ⟨rfl, h.2⟩)
    rw [wantedClass_eq_asked, written]
    rfl
  · next h => rw [State.putBeacon_beacon_eq, if_neg h]

/-! ### Calls that leave and join (R154) -/

/-- The beacon without call `n` among its holders (R154). -/
def Beacon.lose (n : Nat) (b : Beacon) : Beacon := { b with holders := b.holders.filter fun m => decide (m ≠ n) }

/-- The beacon with call `n` at the end of its holders, unless it is one already (R154). -/
def Beacon.gain (n : Nat) (b : Beacon) : Beacon := { b with holders := addToSet b.holders n }

theorem leaveBeacon_beacon (s : State) (n : Nat) (o : Option Nat) (z : Nat) : (s.leaveBeacon n o).beacon z =
    if o = some z ∧ 1 ≤ z ∧ z ≤ 8 then s.settles ((s.beacon z).lose n) else s.beacon z := by
  cases o with
  | none => rfl
  | some y =>
    refine (act_putBeacon_beacon s y z ((s.beacon y).lose n)).trans ?_
    by_cases h : z = y
    · subst h; simp
    · simp [h, Ne.symm h]

theorem joinBeacon_beacon (s : State) (n : Nat) (o : Option Nat) (z : Nat) : (s.joinBeacon n o).beacon z =
    if o = some z ∧ 1 ≤ z ∧ z ≤ 8 then s.settles ((s.beacon z).gain n) else s.beacon z := by
  cases o with
  | none => rfl
  | some y =>
    refine (act_putBeacon_beacon s y z ((s.beacon y).gain n)).trans ?_
    by_cases h : z = y
    · subst h; simp
    · simp [h, Ne.symm h]

/-- Leaving changes nothing that settling goes by. -/
theorem leaveBeacon_settles (s : State) (n : Nat) (o : Option Nat) (b : Beacon) :
    (s.leaveBeacon n o).settles b = s.settles b := by
  rw [State.leaveBeacon_rest]; rfl

/-- The beacons once a call's held beacon has changed (R154). -/
theorem moveHolder_beacon (s : State) (n : Nat) {old new : Option Nat} (h : old ≠ new) (z : Nat) :
    (s.moveHolder n old new).beacon z =
      if new = some z ∧ 1 ≤ z ∧ z ≤ 8 then s.settles ((s.beacon z).gain n)
      else if old = some z ∧ 1 ≤ z ∧ z ≤ 8 then s.settles ((s.beacon z).lose n) else s.beacon z := by
  unfold State.moveHolder
  rw [if_neg h, joinBeacon_beacon, leaveBeacon_settles, leaveBeacon_beacon]
  by_cases joins : new = some z
  · have stays : ¬ (old = some z ∧ 1 ≤ z ∧ z ≤ 8) := fun e => h (e.1.trans joins.symm)
    rw [if_neg stays]
  · have elsewhere : ¬ (new = some z ∧ 1 ≤ z ∧ z ≤ 8) := fun e => joins e.1
    rw [if_neg elsewhere, if_neg elsewhere]

variable {s : State} {n : Nat} {f : Call → Call} {c : Call}

theorem changeCall_of_found (found : s.findCall n = some c) (f : Call → Call) :
    s.changeCall n f = (s.putCall c (f c)).post (.call n) := by
  unfold State.changeCall; rw [found]

/-- A change of a call that keeps its held beacon leaves the beacons alone (R154). -/
theorem changeCall_beacons_of_same (found : s.findCall n = some c) (h : (f c).heldBeacon = c.heldBeacon) :
    (s.changeCall n f).beacons = s.beacons := by
  rw [changeCall_of_found found, State.post_beacons, State.putCall, State.moveHolder, if_pos h.symm]
  rfl

/-- The state that a change of a call leaves settles beacons as the state in which the record was written. -/
theorem changeCall_settles (found : s.findCall n = some c) (b : Beacon) : (s.changeCall n f).settles b =
    (s.setBook { s.book with calls := replaceCall (f c) s.book.calls }).settles b := by
  have record : ∀ m, (s.changeCall n f).findCall m =
      (s.setBook { s.book with calls := replaceCall (f c) s.book.calls }).findCall m := fun m => by
    rw [changeCall_of_found found, State.post_findCall, State.putCall_rest]
    rfl
  unfold State.settles
  rw [asked_congr b.hold fun m _ => congrArg (Option.map Call.cls) (record m), State.changeCall_store,
    State.changeCall_clock]
  rfl

/-- The beacons after a change of a call that changes its held beacon (R154). -/
theorem changeCall_beacon_of_moved (found : s.findCall n = some c) (number : (f c).number = n)
    (moved : c.heldBeacon ≠ (f c).heldBeacon) (z : Nat) : (s.changeCall n f).beacon z =
      if (f c).heldBeacon = some z ∧ 1 ≤ z ∧ z ≤ 8 then (s.changeCall n f).settles ((s.beacon z).gain n)
      else if c.heldBeacon = some z ∧ 1 ≤ z ∧ z ≤ 8 then (s.changeCall n f).settles ((s.beacon z).lose n)
      else s.beacon z := by
  rw [changeCall_settles found, changeCall_settles found, changeCall_of_found found, State.post_beacon, State.putCall,
    number, moveHolder_beacon _ _ moved]
  rfl

end Sys2Proof.Machine
end

section
/-!
SUPPORT. The flashing of a driving beacon (R156), and the requests that hold and set one (R158, R159). It settles O51
and O52.
-/

namespace Sys2Proof.Machine

/-! ### Flashing (R156) -/

variable {s : State} {z : Nat} {d : Driving}

/-- A period that has run out starts anew, at the active level. -/
theorem beaconTick_restarts (drives : (s.beacon z).driving = some d) (ended : d.period ≤ d.position s.clock)
    (lit : 1 ≤ d.onTime) : s.beaconTick z = s.putBeacon z { s.beacon z with
      driving := some { d with start := s.clock }, output := (s.beacon z).idle.active } := by
  have begins : Driving.position { d with start := s.clock } s.clock < d.onTime := by
    unfold Driving.position
    rw [BitVec.sub_self]
    exact lit
  unfold State.beaconTick
  dsimp only
  rw [drives]
  dsimp only
  rw [if_pos ended, levelAt, if_pos begins]

/-- Past the on-time, within the period, the output goes to the idle level. -/
theorem beaconTick_darkens (drives : (s.beacon z).driving = some d) (past : d.onTime ≤ d.position s.clock)
    (within : d.position s.clock < d.period) :
    s.beaconTick z = s.putBeacon z { s.beacon z with output := (s.beacon z).idle.out } := by
  unfold State.beaconTick
  dsimp only
  rw [drives]
  dsimp only
  rw [if_neg (Nat.not_le.mpr within), levelAt, if_neg (Nat.not_lt.mpr past)]

theorem execBeaconPeriodEnd_eq (drives : (s.beacon z).driving = some d) : execBeaconPeriodEnd z s =
    if d.period ≤ d.position s.clock then .next (s.beaconTick z) else .next s := by
  unfold execBeaconPeriodEnd; rw [drives]

theorem execBeaconOnTimeEnd_eq (drives : (s.beacon z).driving = some d) : execBeaconOnTimeEnd z s =
    if d.onTime ≤ d.position s.clock ∧ d.position s.clock < d.period then .next (s.beaconTick z) else .next s := by
  unfold execBeaconOnTimeEnd; rw [drives]

/-- A beacon of the table reads back as it was written. -/
theorem putBeacon_beacon_self (h1 : 1 ≤ z) (h8 : z ≤ 8) (b : Beacon) : (s.putBeacon z b).beacon z = b :=
  (State.putBeacon_beacon_eq s z z b).trans (if_pos ⟨rfl, h1, h8⟩)

theorem putBeacon_beacon_ne {k : Nat} (h : k ≠ z) (b : Beacon) : (s.putBeacon z b).beacon k = s.beacon k :=
  (State.putBeacon_beacon_eq s z k b).trans (if_neg fun e => h e.1)

/-- Settles O51: the position of the drive decides which of the two levels the output takes. -/
theorem beaconsFlashByTheirPosition : Obligations.BeaconsFlashByTheirPosition := by
  intro s z d h1 h8 drives
  refine ⟨fun ended lit => ⟨_, (execBeaconPeriodEnd_eq drives).trans (if_pos ended), ?_⟩,
    fun past within => ⟨_, (execBeaconOnTimeEnd_eq drives).trans (if_pos ⟨past, within⟩), ?_⟩,
    fun early => (execBeaconPeriodEnd_eq drives).trans (if_neg (Nat.not_le.mpr early)),
    fun early => (execBeaconOnTimeEnd_eq drives).trans (if_neg fun e => Nat.not_le.mpr early e.1)⟩
  · rw [beaconTick_restarts drives ended lit, Level.active_eq]
    exact ⟨putBeacon_beacon_self h1 h8 _, fun k hk => putBeacon_beacon_ne hk _, rfl⟩
  · rw [beaconTick_darkens drives past within, Level.out_eq]
    exact ⟨putBeacon_beacon_self h1 h8 _, fun k hk => putBeacon_beacon_ne hk _, rfl⟩

/-! ### BEACON_HOLD (R155, R157, R158) -/

theorem exec_beaconHold (h : s.TakesRequests) (tag : Byte) (p : List Byte) (hp : p.length ≤ 250) {a : Answer}
    (ha : reqBeaconHold p s.heard = a) : exec (.beaconHold tag p) s = .next (State.sends 0x94#8 tag a) :=
  ha ▸ congrArg _ (receiveFrame_sends h 0x14#8 tag p hp)

theorem exec_beaconRelease (h : s.TakesRequests) (tag : Byte) (p : List Byte) (hp : p.length ≤ 250) {a : Answer}
    (ha : reqBeaconHold p s.heard = a) : exec (.beaconRelease tag p) s = .next (State.sends 0x94#8 tag a) :=
  ha ▸ congrArg _ (receiveFrame_sends h 0x14#8 tag p hp)

theorem beaconNumber_within (h1 : 1 ≤ z) (h8 : z ≤ 8) : within 1 8 (BitVec.ofNat 8 z : Byte).toNat = true := by
  rw [toNat_count (by omega), within_iff]
  exact ⟨h1, h8⟩

theorem reqBeaconHold_holds (h1 : 1 ≤ z) (h8 : z ≤ 8) (cls : Cls) (s : State) :
    reqBeaconHold [BitVec.ofNat 8 z, 0#8, BitVec.ofNat 8 cls.rank] s =
      (s.setHold z (some cls)).answerBeacon z := by
  have rank : Cls.ofCode (BitVec.ofNat 8 cls.rank : Byte).toNat = some cls := by cases cls <;> rfl
  show s.beaconHold (BitVec.ofNat 8 z : Byte).toNat (BitVec.ofNat 8 cls.rank : Byte).toNat = _
  unfold State.beaconHold
  rw [rank, beaconNumber_within h1 h8, toNat_count (by omega)]
  rfl

theorem reqBeaconHold_releases (h1 : 1 ≤ z) (h8 : z ≤ 8) (w : Byte) (s : State) :
    reqBeaconHold [BitVec.ofNat 8 z, 1#8, w] s = (s.setHold z none).answerBeacon z := by
  show s.beaconRelease (BitVec.ofNat 8 z : Byte).toNat = _
  unfold State.beaconRelease
  rw [beaconNumber_within h1 h8, toNat_count (by omega)]
  rfl

/-- A beacon, an action or a class out of range is refused (R158). -/
theorem reqBeaconHold_refuses {z a v : Byte}
    (bad : z.toNat = 0 ∨ 8 < z.toNat ∨ 1 < a.toNat ∨ (a = 0#8 ∧ 3 < v.toNat)) (s : State) :
    reqBeaconHold [z, a, v] s = s.refuse .badValue := by
  show (if a.toNat = 0 then s.beaconHold z.toNat v.toNat
    else if a.toNat = 1 then s.beaconRelease z.toNat else s.refuse .badValue) = _
  have outside : a.toNat ≤ 1 → ¬ (a = 0#8 ∧ 3 < v.toNat) → ¬ within 1 8 z.toNat = true := fun ha hv => by
    have number := bad.imp_right (Or.imp_right fun h => h.resolve_right hv)
    rw [within_iff]
    omega
  split
  · next hold =>
    unfold State.beaconHold
    by_cases hv : 3 < v.toNat
    · rw [ofCode_eq_none hv]
    · cases Cls.ofCode v.toNat with
      | none => rfl
      | some cls => exact if_neg (outside (by omega) fun e => hv e.2)
  · next hold =>
    split
    · next release => exact if_neg (outside (by omega) fun e => hold (congrArg BitVec.toNat e.1))
    · rfl

/-- The beacons once a manual hold was written: the one concerned has settled (R157). -/
theorem setHold_beacon (s : State) (z k : Nat) (h : Option Cls) : (s.setHold z h).beacon k =
    if k = z ∧ 1 ≤ z ∧ z ≤ 8 then s.settles { s.beacon z with hold := h } else s.beacon k :=
  act_putBeacon_beacon s z k _

theorem setHold_rest (s : State) (z : Nat) (h : Option Cls) :
    s.setHold z h = { s with beacons := (s.setHold z h).beacons } := by
  unfold State.setHold
  rw [actBeacon_eq]
  rfl

/-- What a BEACON_HOLD carried out leaves, and what it answers (R155, R157, R158). -/
theorem setHold_held (s : State) (h1 : 1 ≤ z) (h8 : z ≤ 8) (tag : Byte) (h : Option Cls) :
    ∃ t k, State.sends 0x94#8 tag ((s.heard.setHold z h).answerBeacon z) =
        State.replying t 0x94#8 tag .ok (BitVec.ofNat 8 z :: beaconBlock s.clock (t.beacon z)) ∧
      s.TopClass h (s.beacon z).holders k ∧
      t.beacon z = { s.beacon z with hold := h }.settled k s.store.params.pattern s.clock ∧
      (∀ y, y ≠ z → t.beacon y = s.beacon y) ∧ t = { s.heard with beacons := t.beacons } := by
  refine ⟨s.heard.setHold z h, s.asked h (s.beacon z).holders, ?_, topClass_asked s _ _, ?_, fun y hy => ?_,
    setHold_rest s.heard z h⟩
  · rw [State.answerBeacon, sends_answer, State.holdReply, State.setHold_clock]
    rfl
  · exact (setHold_beacon s.heard z z h).trans (if_pos ⟨rfl, h1, h8⟩)
  · exact (setHold_beacon s.heard z y h).trans (if_neg fun e => hy e.1)

/-! ### Calls that join and leave (R154) -/

/-- What a beacon does that settles is a settling at the highest class called for. -/
theorem settles_top {u t : State} (params : t.store = u.store) (clock : t.clock = u.clock) (b : Beacon) :
    ∃ k, t.TopClass b.hold b.holders k ∧ t.settles b = b.settled k u.store.params.pattern u.clock :=
  ⟨t.asked b.hold b.holders, topClass_asked t _ _, by rw [State.settles, params, clock]⟩

theorem addToSet_eq (xs : List Nat) (x : Nat) : addToSet xs x = if x ∈ xs then xs else xs ++ [x] := by
  simp [addToSet]

/-- The holders follow a call whose held beacon changes, and each beacon concerned settles (R154, R157). -/
theorem changeCall_moves_holder {n : Nat} {c : Call} {f : Call → Call} (found : s.findCall n = some c)
    (number : (f c).number = n) :
    ((f c).heldBeacon = c.heldBeacon → (s.changeCall n f).beacons = s.beacons) ∧
    (∀ z, 1 ≤ z → z ≤ 8 → c.heldBeacon = some z → (f c).heldBeacon ≠ some z →
      (s.changeCall n f).beacon z = (s.changeCall n f).settles ((s.beacon z).lose n)) ∧
    (∀ z, 1 ≤ z → z ≤ 8 → (f c).heldBeacon = some z → c.heldBeacon ≠ some z →
      (s.changeCall n f).beacon z = (s.changeCall n f).settles ((s.beacon z).gain n)) ∧
    ∀ z, c.heldBeacon ≠ some z → (f c).heldBeacon ≠ some z → (s.changeCall n f).beacon z = s.beacon z := by
  refine ⟨changeCall_beacons_of_same found, fun z h1 h8 old new => ?_, fun z h1 h8 new old => ?_, fun z old new => ?_⟩
  · rw [changeCall_beacon_of_moved found number fun e => new (e ▸ old), if_neg fun e => new e.1, if_pos ⟨old, h1, h8⟩]
  · rw [changeCall_beacon_of_moved found number fun e => old (e ▸ new), if_pos ⟨new, h1, h8⟩]
  · by_cases moved : c.heldBeacon = (f c).heldBeacon
    · exact beacon_congr (changeCall_beacons_of_same found moved.symm) z
    · rw [changeCall_beacon_of_moved found number moved, if_neg fun e => new e.1, if_neg fun e => old e.1]

/-! ### SET_BEACON (R159) -/

theorem exec_setBeacon (h : s.TakesRequests) (tag : Byte) (p : List Byte) (hp : p.length ≤ 250) {a : Answer}
    (ha : reqSetBeacon p s.heard = a) : exec (.setBeacon tag p) s = .next (State.sends 0x96#8 tag a) :=
  ha ▸ congrArg _ (receiveFrame_sends h 0x16#8 tag p hp)

/-- SET_BEACON once its payload is read and the store found idle. -/
def State.setBeacon (s : State) (z v : Nat) : Answer :=
  match levelOf v with
  | none => s.refuse .badValue
  | some level =>
    if !within 1 8 z then s.refuse .badValue
    else if (s.beacon z).idle = level then s.answer (enc1 z)
    else (s.setIdle z level).answer (enc1 z)

theorem reqSetBeacon_eq (idle : s.store.state = .idle) (z v : Byte) :
    reqSetBeacon [z, v] s.heard = s.heard.setBeacon z.toNat v.toNat := unlessSaving_idle idle _

theorem setBeacon_refuses {z v : Nat} (bad : z = 0 ∨ 8 < z ∨ 1 < v) (s : State) :
    s.setBeacon z v = s.refuse .badValue := by
  have outside : v ≤ 1 → within 1 8 z = false := fun hv => (within_eq_false_iff 1 8 z).mpr (by omega)
  have unknown : 1 < v → levelOf v = none := fun hv => by
    unfold levelOf
    rw [if_neg (by omega), if_neg (by omega)]
  unfold State.setBeacon
  by_cases hv : 1 < v
  · rw [unknown hv]
  · rw [outside (by omega)]
    cases levelOf v <;> rfl

theorem setBeacon_level (h1 : 1 ≤ z) (h8 : z ≤ 8) (level : Level) (s : State) : s.setBeacon z level.code =
    if (s.beacon z).idle = level then s.answer (enc1 z) else (s.setIdle z level).answer (enc1 z) := by
  have code : levelOf level.code = some level := by cases level <;> rfl
  have inside : within 1 8 z = true := (within_iff 1 8 z).mpr ⟨h1, h8⟩
  unfold State.setBeacon
  rw [code, inside]
  rfl

/-- The beacon whose idle level changes takes the output that goes with it, its drive as it was (R159). -/
theorem setIdle_eq (s : State) (z : Nat) (level : Level) : s.setIdle z level = s.putBeacon z { s.beacon z with
    idle := level
    output := match (s.beacon z).driving with
      | none => if level = .low then .low else .high
      | some d => if (s.clock - d.start).toNat < d.onTime then (if level = .low then .high else .low)
          else (if level = .low then .low else .high) } := by
  unfold State.setIdle
  simp only [levelAt, Level.active_eq, Level.out_eq]
  rfl

/-- Settles O52: a hold, a release and a call that leaves or joins each settle the beacon concerned, and SET_BEACON
turns its levels. -/
theorem beaconsAreHeldAndSet : Obligations.BeaconsAreHeldAndSet := by
  refine ⟨fun s tag z cls w h h1 h8 => ⟨?_, ?_⟩, fun s t n c c' f found hc number ht => ?_,
    fun s tag z a v h => ⟨fun bad => ?_, fun idle bad => ?_, fun level idle h1 h8 hv => ?_⟩⟩
  · obtain ⟨t, k, sent, held⟩ := setHold_held s h1 h8 tag (some cls)
    exact ⟨t, k, sent ▸ exec_beaconHold h tag _ (by simp) (reqBeaconHold_holds h1 h8 cls _), held⟩
  · obtain ⟨t, k, sent, held⟩ := setHold_held s h1 h8 tag none
    exact ⟨t, k, sent ▸ exec_beaconRelease h tag _ (by simp) (reqBeaconHold_releases h1 h8 w _), held⟩
  · subst hc ht
    obtain ⟨same, leaves, joins, others⟩ := changeCall_moves_holder found number
    have top := fun b => settles_top (State.changeCall_store s n f) (State.changeCall_clock s n f) b
    refine ⟨same, fun z h1 h8 old new => ?_, fun z h1 h8 new old => ?_, others⟩
    · obtain ⟨k, hk, e⟩ := top ((s.beacon z).lose n)
      exact ⟨_, k, rfl, hk, (leaves z h1 h8 old new).trans e⟩
    · obtain ⟨k, hk, e⟩ := top ((s.beacon z).gain n)
      exact ⟨_, k, addToSet_eq _ _, hk, (joins z h1 h8 new old).trans e⟩
  · exact ⟨fun _ => exec_beaconHold h tag _ (by simp) (reqBeaconHold_refuses bad _),
      fun _ => exec_beaconRelease h tag _ (by simp) (reqBeaconHold_refuses bad _)⟩
  · exact exec_setBeacon h tag _ (by simp) ((reqSetBeacon_eq idle z v).trans (setBeacon_refuses bad _))
  · have code : v.toNat = level.code := by rw [hv]; cases level <;> rfl
    have served := exec_setBeacon h tag [z, v] (by simp)
      ((reqSetBeacon_eq idle z v).trans (code ▸ setBeacon_level h1 h8 level s.heard))
    have shown : enc1 z.toNat = [z] := enc1_toNat z
    rw [shown] at served
    refine ⟨fun same => served.trans ?_, fun differs => ⟨s.heard.setIdle z.toNat level, served.trans ?_, ?_,
      fun k hk => ?_, rfl⟩⟩
    · rw [if_pos (show (s.heard.beacon z.toNat).idle = level from same)]
      rfl
    · rw [if_neg (show ¬ (s.heard.beacon z.toNat).idle = level from differs)]
      rfl
    · rw [setIdle_eq]
      exact putBeacon_beacon_self h1 h8 _
    · rw [setIdle_eq]
      exact putBeacon_beacon_ne hk _

end Sys2Proof.Machine
end

section
/-!
SUPPORT. What keeps the beacons true to the call book (R153 to R155): changes that leave the beacons and the calls they
light for alone, a change of a call, and the coming and going of records that hold no beacon.
-/

namespace Sys2Proof.Machine

/-! ### The beacons and the calls they light for -/

/-- The beacon that call `n` holds, if it is in the book and holds one (R154). -/
def State.heldBy (s : State) (n : Nat) : Option Nat := (s.findCall n).bind Call.heldBeacon

/-- The class of call `n`, if it is in the book. -/
def State.classOf (s : State) (n : Nat) : Option Cls := (s.findCall n).map Call.cls

theorem heldBy_eq_some_iff (s : State) (n z : Nat) :
    s.heldBy n = some z ↔ ∃ c, s.findCall n = some c ∧ c.heldBeacon = some z := Option.bind_eq_some_iff

theorem beacon_outside (s : State) {z : Nat} (h : ¬ (1 ≤ z ∧ z ≤ 8)) : s.beacon z = .released :=
  row_outside _ _ _ (by omega)

variable {s t : State}

theorem State.BeaconsSound.mem_iff (h : s.BeaconsSound) {z : Nat} (hz : 1 ≤ z ∧ z ≤ 8) (n : Nat) :
    n ∈ (s.beacon z).holders ↔ s.heldBy n = some z :=
  (h.holders z hz.1 hz.2 n).trans (heldBy_eq_some_iff s n z).symm

/-- A holder of any beacon is a call that holds it. -/
theorem State.BeaconsSound.heldBy_of_mem (h : s.BeaconsSound) {z n : Nat} (hn : n ∈ (s.beacon z).holders) :
    s.heldBy n = some z := by
  by_cases hz : 1 ≤ z ∧ z ≤ 8
  · exact (h.mem_iff hz n).mp hn
  · rw [beacon_outside s hz] at hn
    cases hn

theorem beaconsSound_of (mem : ∀ z, 1 ≤ z ∧ z ≤ 8 → ∀ n, n ∈ (s.beacon z).holders ↔ s.heldBy n = some z)
    (once : ∀ z, (s.beacon z).holders.Nodup)
    (driving : ∀ z, (s.beacon z).driving.map Driving.cls = s.asked (s.beacon z).hold (s.beacon z).holders) :
    s.BeaconsSound :=
  ⟨fun z h1 h8 n => (mem z ⟨h1, h8⟩ n).trans (heldBy_eq_some_iff s n z), once, driving⟩

/-- The beacons have the holders, holds and drives that they had, each call holds what it held, and one that holds a
beacon has the class that it had. -/
structure State.SameLights (s t : State) : Prop where
  holders : ∀ z, (t.beacon z).holders = (s.beacon z).holders
  hold : ∀ z, (t.beacon z).hold = (s.beacon z).hold
  driving : ∀ z, (t.beacon z).driving.map Driving.cls = (s.beacon z).driving.map Driving.cls
  held : ∀ n, t.heldBy n = s.heldBy n
  classes : ∀ n z, s.heldBy n = some z → t.classOf n = s.classOf n

theorem State.BeaconsSound.congr (h : s.BeaconsSound) (e : s.SameLights t) : t.BeaconsSound := by
  refine beaconsSound_of (fun z hz n => ?_) (fun z => e.holders z ▸ h.once z) fun z => ?_
  · rw [e.holders, e.held, h.mem_iff hz]
  · rw [e.driving, e.hold, e.holders, h.driving z, wantedClass_eq_asked]
    exact (asked_congr _ fun n hn => e.classes n z (h.heldBy_of_mem hn)).symm

/-- A change of neither the beacons nor the records of the book. -/
theorem State.BeaconsSound.same (h : s.BeaconsSound) (hb : t.beacons = s.beacons)
    (hc : t.book.calls = s.book.calls) : t.BeaconsSound := by
  have beacon := beacon_congr hb
  have call : ∀ n, t.findCall n = s.findCall n := fun n =>
    congrArg (List.find? fun c : Call => decide (c.number = n)) hc
  exact h.congr ⟨fun z => by rw [beacon], fun z => by rw [beacon], fun z => by rw [beacon],
    fun n => congrArg (Option.bind · _) (call n), fun n _ _ => congrArg (Option.map _) (call n)⟩

theorem State.BeaconsSound.setLink (h : s.BeaconsSound) (x : Link) : (s.setLink x).BeaconsSound := h.same rfl rfl

theorem State.BeaconsSound.setStore (h : s.BeaconsSound) (x : Store) : (s.setStore x).BeaconsSound := h.same rfl rfl

theorem State.BeaconsSound.armSilence (h : s.BeaconsSound) : s.armSilence.BeaconsSound := h.setLink _

theorem State.BeaconsSound.post (h : s.BeaconsSound) (k : NoticeKey) : (s.post k).BeaconsSound :=
  h.same (State.post_beacons s k) (by rw [State.post_book])

theorem State.BeaconsSound.sendReady (h : s.BeaconsSound) : s.sendReady.BeaconsSound :=
  h.same s.sendReady_beacons (by rw [State.sendReady_book])

theorem State.BeaconsSound.each {α : Type} {xs : List α} {f : α → State → State}
    (step : ∀ x s, s.BeaconsSound → (f x s).BeaconsSound) (h : s.BeaconsSound) : (forEach xs f s).BeaconsSound := by
  induction xs generalizing s with
  | nil => exact h
  | cons x xs ih => exact ih (step x s h)

/-! ### The beacon unit -/

/-- A beacon that has settled drives as its hold and holders call for. -/
theorem settles_driving (s : State) (b : Beacon) :
    (s.settles b).driving.map Driving.cls = s.asked (s.settles b).hold (s.settles b).holders := by
  unfold State.settles
  rw [Beacon.settled_driving, Beacon.settled_hold, Beacon.settled_holders]

theorem settles_holders (s : State) (b : Beacon) : (s.settles b).holders = b.holders := Beacon.settled_holders _ _ _ _

/-- A manual hold set or cleared: the beacon concerned has settled (R157, R158). -/
theorem State.BeaconsSound.setHold (h : s.BeaconsSound) (z : Nat) (hold : Option Cls) :
    (s.setHold z hold).BeaconsSound := by
  have calls : (s.setHold z hold).findCall = s.findCall := by rw [setHold_rest]; rfl
  have holders : ∀ k, ((s.setHold z hold).beacon k).holders = (s.beacon k).holders := fun k => by
    rw [setHold_beacon]
    split
    · next e => rw [settles_holders, e.1]
    · rfl
  have asked : (s.setHold z hold).asked = s.asked := by unfold State.asked; rw [calls]
  refine beaconsSound_of (fun k hk n => ?_) (fun k => holders k ▸ h.once k) fun k => ?_
  · rw [holders, State.heldBy, calls]
    exact h.mem_iff hk n
  · rw [asked, setHold_beacon]
    split
    · exact settles_driving s _
    · exact h.driving k

/-- A beacon written with the holders, the hold and the class of the drive that it had. -/
theorem State.BeaconsSound.putBeacon (h : s.BeaconsSound) (z : Nat) {b : Beacon}
    (holders : b.holders = (s.beacon z).holders) (hold : b.hold = (s.beacon z).hold)
    (driving : b.driving.map Driving.cls = (s.beacon z).driving.map Driving.cls) : (s.putBeacon z b).BeaconsSound := by
  have beacon := fun k => State.putBeacon_beacon_eq s z k b
  refine h.congr ⟨fun k => ?_, fun k => ?_, fun k => ?_, fun _ => rfl, fun _ _ _ => rfl⟩
  all_goals
    rw [beacon]
    split
    · next e => rw [e.1]; assumption
    · rfl

/-- The tick of a beacon keeps its drive (R156). -/
theorem State.BeaconsSound.beaconTick (h : s.BeaconsSound) (z : Nat) : (s.beaconTick z).BeaconsSound := by
  unfold State.beaconTick
  dsimp only
  split
  · exact h
  · next d drives =>
    refine h.putBeacon z rfl rfl ?_
    rw [drives]
    split <;> rfl

/-- A new idle level keeps the drive (R159). -/
theorem State.BeaconsSound.setIdle (h : s.BeaconsSound) (z : Nat) (v : Level) : (s.setIdle z v).BeaconsSound :=
  h.putBeacon z rfl rfl rfl

/-- A beacon whose pattern changed restarts with the class that it drives with (R184). -/
theorem State.BeaconsSound.restartIfChanged (h : s.BeaconsSound) (before : PerClass Pattern) (z : Nat) :
    (State.restartIfChanged before z s).BeaconsSound := by
  unfold State.restartIfChanged
  split
  · exact h
  · next d drives =>
    split
    · exact h
    · exact h.putBeacon z rfl rfl (by rw [drives]; rfl)

/-! ### A change of a call (R154) -/

theorem addToSet_mem_iff (xs : List Nat) (x y : Nat) : y ∈ addToSet xs x ↔ y = x ∨ y ∈ xs := by
  rw [addToSet_eq]
  split
  · next h => exact ⟨.inr, fun e => e.elim (fun e => e ▸ h) id⟩
  · rw [List.mem_append, List.mem_singleton, or_comm]

theorem addToSet_nodup {xs : List Nat} (h : xs.Nodup) (x : Nat) : (addToSet xs x).Nodup := by
  rw [addToSet_eq]
  split
  · exact h
  · next hx =>
    exact List.nodup_append.mpr ⟨h, List.nodup_singleton x, by simpa using fun a ha (e : a = x) => hx (e ▸ ha)⟩

/-- A call changes and keeps its number and its class: the holder sets follow the beacon it holds, and what has to
settles. -/
theorem State.BeaconsSound.changeCall (h : s.BeaconsSound) (n : Nat) (f : Call → Call)
    (number : ∀ c, (f c).number = c.number) (cls : ∀ c, (f c).cls = c.cls) : (s.changeCall n f).BeaconsSound := by
  cases found : s.findCall n with
  | none => unfold State.changeCall; rw [found]; exact h
  | some c =>
    have record := fun m => State.changeCall_findCall s n m f number
    have classes : ∀ m, (s.changeCall n f).classOf m = s.classOf m := fun m => by
      unfold State.classOf
      rw [record, Option.map_map]
      refine congrArg (Option.map · _) (funext fun x => ?_)
      simp only [Function.comp_apply]
      split
      · exact cls x
      · rfl
    have held : ∀ m, (s.changeCall n f).heldBy m = if m = n then (f c).heldBeacon else s.heldBy m := fun m => by
      unfold State.heldBy
      rw [record]
      split
      · next e => rw [e, found]; rfl
      · rw [Option.map_id']
    have heldBefore : s.heldBy n = c.heldBeacon := by rw [State.heldBy, found]; rfl
    by_cases moved : c.heldBeacon = (f c).heldBeacon
    · have beacon := beacon_congr (changeCall_beacons_of_same found moved.symm)
      refine h.congr ⟨fun z => by rw [beacon], fun z => by rw [beacon], fun z => by rw [beacon],
        fun m => ?_, fun m _ _ => classes m⟩
      rw [held]
      split
      · next e => rw [e, heldBefore, moved]
      · rfl
    · have beacon := changeCall_beacon_of_moved found ((number c).trans (State.findCall_number found)) moved
      refine beaconsSound_of (fun z hz m => ?_) (fun z => ?_) fun z => ?_
      · rw [beacon, held]
        have before := h.mem_iff hz m
        split
        · next joins =>
          rw [settles_holders, Beacon.gain, addToSet_mem_iff, before]
          by_cases e : m = n
          · simp [e, joins.1]
          · simp [e]
        · next stays =>
          have new : (f c).heldBeacon ≠ some z := fun e => stays ⟨e, hz⟩
          split
          · rw [settles_holders, Beacon.lose, List.mem_filter, decide_eq_true_eq, before]
            by_cases e : m = n
            · simp [e, new]
            · simp [e]
          · next old =>
            rw [before]
            split
            · next e =>
              rw [e, heldBefore]
              exact iff_of_false (fun e => old ⟨e, hz⟩) new
            · rfl
      · rw [beacon]
        split
        · rw [settles_holders]
          exact addToSet_nodup (h.once z) n
        · split
          · rw [settles_holders]
            exact (h.once z).sublist List.filter_sublist
          · exact h.once z
      · rw [beacon]
        split
        · exact settles_driving _ _
        · split
          · exact settles_driving _ _
          · exact (h.driving z).trans (asked_congr _ fun m _ => classes m).symm

theorem State.BeaconsSound.act (h : s.BeaconsSound) (a : Act s t) : t.BeaconsSound := by
  cases a with
  | change n f keeps => exact h.changeCall n f (fun c => (keeps c).same.number) fun c => (keeps c).same.cls
  | pointer | queue | withdraw | grants | bursts => exact h.same rfl rfl

/-- Escalation, and the scheduler, keep the beacons true to the calls. -/
theorem State.BeaconsSound.acts (h : s.BeaconsSound) (a : Acts s t) : t.BeaconsSound := by
  induction a with
  | refl => exact h
  | tail _ k ih => exact ih.act k

/-! ### Records that come and go -/

/-- A CLOSED call holds no beacon (R20). -/
theorem State.BookSound.closed_heldBy (h : s.BookSound) {n : Nat} (hn : n ∈ s.book.closedOrder) :
    s.heldBy n = none := by
  obtain ⟨c, hc, closed⟩ := (h.closed_iff n).mp hn
  have unheld := (h.calls c (State.findCall_mem hc)).beacon
  cases e : c.heldBeacon with
  | none => rw [State.heldBy, hc]; exact e
  | some z =>
    rcases unheld (by rw [e]; rfl) with k | k <;> exact nomatch closed.symm.trans k

/-- The record of a CLOSED call leaves the book (R5, R7). -/
theorem State.BeaconsSound.without (h : s.BeaconsSound) (hb : s.BookSound) {n : Nat} (hn : n ∈ s.book.closedOrder) :
    (s.without n).BeaconsSound := by
  have dark := hb.closed_heldBy hn
  refine h.congr ⟨fun _ => rfl, fun _ => rfl, fun _ => rfl, fun m => ?_, fun m z hm => ?_⟩
  · rw [State.heldBy, State.without_findCall]
    split
    · next e => rw [e, dark]; rfl
    · rfl
  · have other : m ≠ n := fun e => by
      rw [e, dark] at hm
      cases hm
    rw [State.classOf, State.without_findCall, if_neg other]
    rfl

/-- A record with a free number that holds no beacon enters the book (R8). -/
theorem State.BeaconsSound.addCall (h : s.BeaconsSound) {c : Call} (fresh : ∀ x ∈ s.book.calls, x.number ≠ c.number)
    (dark : c.heldBeacon = none) : (s.addCall c).BeaconsSound := by
  have unknown : s.findCall c.number = none := by
    by_contra known
    obtain ⟨x, hx, e⟩ := (State.findCall_ne_none_iff _ _).mp known
    exact fresh x hx e
  have beacon : ∀ z, (s.addCall c).beacon z = s.beacon z := fun z => by rw [addCall_eq, State.post_beacon]; rfl
  refine h.congr ⟨fun z => by rw [beacon], fun z => by rw [beacon], fun z => by rw [beacon],
    fun m => ?_, fun m z hm => ?_⟩
  · unfold State.heldBy
    rw [addCall_findCall fresh]
    split
    · next e => rw [e, unknown]; exact dark
    · rfl
  · have other : m ≠ c.number := fun e => by
      rw [State.heldBy, e, unknown] at hm
      cases hm
    unfold State.classOf
    rw [addCall_findCall fresh, if_neg other]

theorem State.BeaconsSound.obtainSlot (h : s.BeaconsSound) (hb : s.BookSound) (slot : s.obtainSlot = some t) :
    t.BeaconsSound := by
  rcases obtainSlot_cases slot with ⟨-, rfl⟩ | ⟨n, rest, -, order, rfl⟩
  · exact h
  · exact h.without hb (order ▸ List.mem_cons_self)

/-- The load finds the book empty, and leaves every beacon at rest (R161, R180). -/
theorem load_beaconsSound (hb : s.BookSound) (starting : s.link.state = .starting) (img : Image) (r : LoadResult) :
    ((s.install img).setStore { (s.install img).store with loadResult := some r }).enterOnline.BeaconsSound := by
  have installed : (s.install img).BeaconsSound := by
    have rests : ∀ z, ((s.install img).beacon z).holders = [] ∧ ((s.install img).beacon z).hold = none ∧
        ((s.install img).beacon z).driving = none := fun z =>
      row_all (P := fun b : Beacon => b.holders = [] ∧ b.hold = none ∧ b.driving = none)
        (img.idle.map restingBeacon) .released ⟨rfl, rfl, rfl⟩ (fun b hb => by
          rw [Vector.toList_map] at hb
          obtain ⟨v, -, rfl⟩ := List.mem_map.mp hb
          exact ⟨rfl, rfl, rfl⟩) z
    have unknown : ∀ n, (s.install img).findCall n = none := fun n => by
      show s.book.calls.find? _ = none
      rw [(hb.starting starting).1]
      rfl
    refine beaconsSound_of (fun z _ n => ?_) (fun z => ?_) fun z => ?_
    · rw [(rests z).1, State.heldBy, unknown]
      exact ⟨nofun, nofun⟩
    · rw [(rests z).1]
      exact List.nodup_nil
    · obtain ⟨holders, hold, driving⟩ := rests z
      rw [holders, hold, driving]
      rfl
  exact ((installed.setStore _).setLink _).armSilence.post .part

end Sys2Proof.Machine
end

section
/-!
SUPPORT. The operations of the blocks keep the beacons true to the call book, in the order of the blocks: a chain of
escalation steps by `State.BeaconsSound.acts`, what writes neither beacons nor records by `State.BeaconsSound.same`.
Where an operation may take a record out of the book it rests on a sound book as well (`State.Lit`).
-/

namespace Sys2Proof.Machine

/-- The call book is sound, and the beacons are true to it. -/
structure State.Lit (s : State) : Prop where
  book : s.BookSound
  beacons : s.BeaconsSound

variable {s t : State}

/-- Moves keep the book sound; the beacons are left to be shown. -/
theorem State.Lit.after (h : s.Lit) (m : Moves s t) (beacons : t.BeaconsSound) : t.Lit :=
  ⟨m.bookSound h.book, beacons⟩

theorem State.Lit.each {α : Type} {xs : List α} {f : α → State → State} (step : ∀ x s, s.Lit → (f x s).Lit)
    (h : s.Lit) : (forEach xs f s).Lit := by
  induction xs generalizing s with
  | nil => exact h
  | cons x xs ih => exact ih (step x s h)

/-! ### The call book -/

theorem State.BeaconsSound.setPoint (h : s.BeaconsSound) (st i : Nat) (x : PointState) :
    (s.setPoint st i x).BeaconsSound := h.same rfl rfl

theorem State.BeaconsSound.raiseFromPoint (h : s.BeaconsSound) (hb : s.BookSound) (p : CallPoint) :
    (s.raiseFromPoint p).BeaconsSound := by
  rw [raiseFromPoint_eq]
  have added := h.addCall (c := s.pressCall p) (nextNumber_free hb.capacity) rfl
  exact (added.setPoint _ _ _).acts (acts_startCall _ _ _)

theorem State.BeaconsSound.pressOpen (h : s.BeaconsSound) (n : Nat) : (s.pressOpen n).BeaconsSound := by
  cases found : s.findCall n with
  | none => rw [pressOpen_none s n found]; exact h
  | some c =>
    have counted := h.changeCall n Call.pressed (fun _ => rfl) fun _ => rfl
    rw [pressOpen_eq s n c found]
    split
    · exact counted.acts (acts_advanceCall _ n)
    · exact counted

theorem State.Lit.press (h : s.Lit) (st i : Nat) : (s.press st i).Lit := by
  refine h.after (moves_press s st i) ?_
  unfold State.press
  split
  · exact h.beacons
  · split
    · split
      · next u slot =>
        exact (h.beacons.obtainSlot h.book slot).raiseFromPoint (obtainSlot_sound h.book slot).1 _
      · exact (h.beacons.setPoint st i .pending).same rfl rfl
    · exact h.beacons.pressOpen _
    · exact h.beacons

theorem State.BeaconsSound.leaveCrew? (h : s.BeaconsSound) (n : Nat) (a : Option Nat) :
    (s.leaveCrew? n a).BeaconsSound := by
  cases a with
  | none => exact h
  | some a => exact State.BeaconsSound.post (s := s.putCrew a _) (h.same rfl rfl) _

theorem State.BeaconsSound.markClosed (h : s.BeaconsSound) (r : CloseReason) (n : Nat) :
    (s.markClosed r n).BeaconsSound :=
  State.BeaconsSound.same (s := s.changeCall n fun c => c.closedFor r s.clock)
    (h.changeCall n _ (fun _ => rfl) fun _ => rfl) rfl rfl

theorem State.BeaconsSound.closeRecord (h : s.BeaconsSound) (r : CloseReason) (c : Call) :
    (s.closeRecord r c).BeaconsSound := by
  have noted : (s.sendCloseNotes r c).BeaconsSound :=
    h.acts ((Act.withdraw s c.number).one.trans (acts_sendToCrews _ _ _))
  rw [closeRecord_eq]
  exact (noted.leaveCrew? c.number c.accepting).markClosed r c.number

theorem State.BeaconsSound.settlePoint (h : s.BeaconsSound) (c : Call) : (s.settlePoint c).BeaconsSound := by
  rw [settlePoint_eq]
  exact h.same rfl rfl

theorem State.BeaconsSound.takePress (h : s.BeaconsSound) (hb : s.BookSound) (rest : List (Nat × Nat)) :
    (s.takePress rest).BeaconsSound := by
  have evicted : s.evictOldest.BeaconsSound := by
    unfold State.evictOldest
    split
    · exact h
    · next order => exact h.without hb (order ▸ List.mem_cons_self)
  exact evicted.same rfl rfl

theorem State.BeaconsSound.servePending (h : s.BeaconsSound) (hb : s.BookSound) (closed : s.book.closedOrder ≠ []) :
    s.servePending.BeaconsSound := by
  cases waiting : s.book.pendingPresses with
  | nil => rw [servePending_nil s waiting]; exact h
  | cons key rest =>
    rw [servePending_cons s key rest waiting]
    split
    · exact h.takePress hb rest
    · exact (h.takePress hb rest).raiseFromPoint (hb.takePress closed rest) _

theorem State.Lit.closeCall_beacons (h : s.Lit) (r : CloseReason) {c : Call} (found : s.findCall c.number = some c)
    (opened : c.state ≠ .closed) : (s.closeCall r c.number).BeaconsSound := by
  rw [closeCall_eq s r _ c found]
  refine ((h.beacons.closeRecord r c).settlePoint c).servePending ((h.book.closeRecord r found opened).settlePoint c) ?_
  rw [(settlePoint_calls _ c).2.1, closeRecord_eq, markClosed_closedOrder]
  simp

theorem State.BeaconsSound.releaseCrew (h : s.BeaconsSound) (c : Call) : (s.releaseCrew c).BeaconsSound := by
  rw [releaseCrew_eq]
  exact (h.changeCall c.number Call.released (fun _ => rfl) fun _ => rfl).leaveCrew? _ _

/-! ### Acknowledgements (4.2, 4.4) -/

theorem State.BeaconsSound.acceptCall (h : s.BeaconsSound) (c : Call) (crew : Nat) (heard : Tick) :
    (s.acceptCall c crew heard).BeaconsSound := by
  have recorded : (s.acceptRecord c crew heard).BeaconsSound :=
    State.BeaconsSound.post (s := State.putCrew _ crew _)
      ((h.changeCall c.number (Call.acceptedBy crew heard s.clock s.arrivalWindow) (fun _ => rfl) fun _ => rfl).same
        rfl rfl) _
  rw [acceptCall_eq]
  exact recorded.acts ((Act.withdraw _ c.number).one.trans (acts_sendToCrews _ _ _))

theorem State.BeaconsSound.acceptAsDecline (h : s.BeaconsSound) (c : Call) (crew : Nat) :
    (s.acceptAsDecline c crew).BeaconsSound := by
  unfold State.acceptAsDecline
  dsimp only
  split
  · exact (h.post _).acts (acts_engineDecline _ _ _)
  · exact h.post _

theorem State.BeaconsSound.lateAccept (h : s.BeaconsSound) (c : Call) (crew : Nat) :
    (s.lateAccept c crew).BeaconsSound := by
  unfold State.lateAccept
  split
  · exact h
  · split
    · exact h
    · split
      · exact h.acts (acts_sendToCrews _ _ _)
      · exact h

theorem State.BeaconsSound.ackAccept (h : s.BeaconsSound) (c : Call) (crew : Nat) (heard : Tick) :
    (s.ackAccept c crew heard).BeaconsSound := by
  have waits : (if !c.paged.contains crew then s else if s.hasRoom crew then s.acceptCall c crew heard
      else s.acceptAsDecline c crew).BeaconsSound := by
    split
    · exact h
    · split
      · exact h.acceptCall c crew heard
      · exact h.acceptAsDecline c crew
  unfold State.ackAccept
  split
  · exact waits
  · exact waits
  · exact h.lateAccept c crew
  · exact h.lateAccept c crew
  · exact h

theorem State.BeaconsSound.ackDecline (h : s.BeaconsSound) (c : Call) (crew : Nat) :
    (s.ackDecline c crew).BeaconsSound := by
  unfold State.ackDecline
  split
  · exact h.acts (acts_engineDecline _ _ _)
  · exact h

/-- An arrival recorded keeps the beacons (R86, R87). -/
theorem State.BeaconsSound.arrived (h : s.BeaconsSound) (n : Nat) (f : Call → Option Tick) :
    (s.changeCall n (Call.arrived f)).BeaconsSound := h.changeCall n _ (fun _ => rfl) fun _ => rfl

theorem State.BeaconsSound.ackOnScene (h : s.BeaconsSound) (c : Call) (crew : Nat) (heard : Tick) :
    (s.ackOnScene c crew heard).BeaconsSound := by
  have waits : (if !c.paged.contains crew then s else if s.hasRoom crew then
      (s.acceptCall c crew heard).changeCall c.number (Call.arrived Call.acceptTick)
      else s.acceptAsDecline c crew).BeaconsSound := by
    split
    · exact h
    · split
      · exact (h.acceptCall c crew heard).arrived _ _
      · exact h.acceptAsDecline c crew
  unfold State.ackOnScene
  split
  · exact waits
  · exact waits
  · split
    · exact h.arrived c.number fun c => some (arrivalTick c.acceptTick heard)
    · exact h
  · exact h
  · exact h

theorem State.Lit.ackDone_beacons (h : s.Lit) (c : Call) (crew : Nat) (found : s.findCall c.number = some c)
    (opened : c.state ≠ .closed) : (s.ackDone c crew).BeaconsSound := by
  have close : (if c.accepting = some crew then s.closeCall .doneByCrew c.number else s).BeaconsSound := by
    split
    · exact h.closeCall_beacons _ found opened
    · exact h.beacons
  unfold State.ackDone
  split
  · exact close
  · exact close
  · exact h.beacons
  · exact h.beacons
  · exact h.beacons

theorem State.Lit.matchAck_beacons (h : s.Lit) (r : AckRecord) (heard : Tick) : (s.matchAck r heard).BeaconsSound := by
  unfold State.matchAck
  split
  · exact h.beacons
  · split
    · exact h.beacons
    · next c found =>
      rw [← State.findCall_number found] at found
      split
      · exact h.beacons
      · next opened =>
        split
        · exact h.beacons
        · cases r.kind with
          | accept => exact h.beacons.ackAccept c _ heard
          | decline => exact h.beacons.ackDecline c _
          | onScene => exact h.beacons.ackOnScene c _ heard
          | done => exact h.ackDone_beacons c _ found opened

theorem State.Lit.takeAck (h : s.Lit) (st : Nat) (r : AckRecord) : (s.takeAck st r).Lit := by
  refine h.after (moves_takeAck s st r) ?_
  have seen : (s.seePager r.pager ⟨st, r.quality, r.heard s.clock⟩).Lit :=
    h.after (calm_seePager s _ _).moves (h.beacons.same rfl rfl)
  unfold State.takeAck
  dsimp only
  generalize s.seePager r.pager ⟨st, r.quality, r.heard s.clock⟩ = u at seen ⊢
  split
  · exact seen.beacons
  · refine State.Lit.matchAck_beacons ?_ r _
    exact ⟨seen.book.of_book rfl rfl (fun _ e => e) id, seen.beacons.same rfl rfl⟩

/-! ### The station line (chapter 7) -/

theorem State.BeaconsSound.armDue (h : s.BeaconsSound) (st : Nat) : (s.armDue st).BeaconsSound := by
  unfold State.armDue
  dsimp only
  split <;> exact h.same rfl rfl

theorem State.BeaconsSound.addFollowUp (h : s.BeaconsSound) (st : Nat) : (s.addFollowUp st).BeaconsSound :=
  h.same rfl rfl

theorem State.BeaconsSound.changeStation (h : s.BeaconsSound) (st : Nat) (x : Station) :
    (s.changeStation st x).BeaconsSound := State.BeaconsSound.post (s := s.putStation st x) (h.same rfl rfl) _

theorem State.BeaconsSound.goSilent (h : s.BeaconsSound) (st m : Nat) : (s.goSilent st m).BeaconsSound := by
  have silent := h.changeStation st { s.station st with
    service := .silent, misses := m, resync := true
    due := some (tickAfter s.clock (8 * s.store.params.pollPeriod)), pollWaits := false }
  exact (silent.same (t := (State.dropFollowUp _ st).voidExchange st) rfl rfl).acts (acts_flush _ st)

theorem State.BeaconsSound.recordMiss (h : s.BeaconsSound) (st : Nat) : (s.recordMiss st).BeaconsSound := by
  have missed : (if s.store.params.missLimit ≤ (s.station st).misses + 1 then
      s.goSilent st ((s.station st).misses + 1) else s.changeStation st
        { s.station st with service := .suspect, misses := (s.station st).misses + 1 }).BeaconsSound := by
    split
    · exact h.goSilent st _
    · exact h.changeStation st _
  unfold State.recordMiss
  dsimp only
  split
  · exact missed
  · exact missed
  · exact h
  · exact h

theorem State.BeaconsSound.recordAnswer (h : s.BeaconsSound) (st : Nat) : (s.recordAnswer st).BeaconsSound := by
  have answered : (if (s.station st).service = .inService ∧ (s.station st).misses = 0 then s else
      (s.changeStation st { s.station st with service := .inService, misses := 0 }).arbitrate
        (s.station st).group).BeaconsSound := by
    split
    · exact h
    · exact (h.changeStation st _).acts (acts_arbitrate _ _)
  unfold State.recordAnswer
  dsimp only
  split
  · exact answered
  · exact answered
  · exact h
  · exact h

theorem State.Lit.handOnward (st : Nat) (r : FloorRecord) (s : State) (h : s.Lit) : (State.handOnward st r s).Lit := by
  cases r with
  | ack q a => exact h.takeAck st a
  | press q i => exact h.press st i

theorem State.Lit.judgeRecord (st : Nat) (r : FloorRecord) (s : State) (h : s.Lit) :
    (State.judgeRecord st r s).Lit := by
  unfold State.judgeRecord
  dsimp only
  split
  · exact State.Lit.handOnward st r _ (h.after (calm_putStation s st _ (by rfl)).moves (h.beacons.same rfl rfl))
  · exact h

theorem State.Lit.takeRecords_beacons (h : s.Lit) (st : Nat) (resync : Bool) (newest : Byte)
    (records : List FloorRecord) :
    (s.takeRecords st resync newest records).BeaconsSound := by
  unfold State.takeRecords
  split
  · exact (h.each (xs := records) (State.Lit.handOnward st)).beacons.same rfl rfl
  · exact (h.each (State.Lit.judgeRecord st)).beacons

theorem State.Lit.pollAnswered_beacons (h : s.Lit) (x : Exchange) (busy more : Bool) (newest : Byte)
    (records : List FloorRecord) : (s.pollAnswered x busy more newest records).BeaconsSound := by
  have seen : ((s.recordAnswer x.station).transmitterSeen x.station busy).Lit :=
    h.after ((moves_recordAnswer s x.station).trans (moves_transmitterSeen _ x.station busy))
      ((h.beacons.recordAnswer x.station).acts (acts_transmitterSeen _ _ busy))
  have taken := seen.takeRecords_beacons x.station x.resync newest records
  have polled : ((if more then (((s.recordAnswer x.station).transmitterSeen x.station busy).takeRecords x.station
      x.resync newest records).addFollowUp x.station
      else ((s.recordAnswer x.station).transmitterSeen x.station busy).takeRecords x.station x.resync
        newest records).armDue x.station).BeaconsSound := by
    refine State.BeaconsSound.armDue ?_ _
    split
    · exact taken.addFollowUp _
    · exact taken
  unfold State.pollAnswered
  dsimp only
  split
  · exact polled
  · exact polled
  · refine State.BeaconsSound.armDue (State.BeaconsSound.addFollowUp ?_ _) _
    exact (h.beacons.changeStation _ _).acts ((acts_arbitrate _ _).trans (acts_transmitterSeen _ _ busy))
  · exact h.beacons

theorem State.BeaconsSound.burstAnswered (h : s.BeaconsSound) (x : Exchange) (taken : Bool) :
    (s.burstAnswered x taken).BeaconsSound := by
  have answered := h.recordAnswer x.station
  unfold State.burstAnswered
  dsimp only
  split
  · exact answered
  · split
    · exact answered.acts (acts_burstTaken _ _)
    · exact answered.acts (acts_burstFailed _ _)

theorem State.BeaconsSound.noReply (h : s.BeaconsSound) (x : Exchange) : (s.noReply x).BeaconsSound := by
  unfold State.noReply
  split
  · exact (h.recordMiss x.station).armDue x.station
  · refine State.BeaconsSound.recordMiss ?_ x.station
    split
    · exact h
    · exact h.acts (acts_burstFailed _ _)

theorem State.Lit.endExchange_beacons (h : s.Lit) (x : Exchange) (reply : Option ValidReply) :
    (s.endExchange x reply).BeaconsSound := by
  have ended : (s.setLine { s.line with exchange := none }).Lit :=
    h.after (calm_setLine s { s.line with exchange := none } rfl).moves (h.beacons.same rfl rfl)
  unfold State.endExchange
  dsimp only
  split
  · exact ended.beacons
  · split
    · exact ended.beacons.noReply x
    · exact ended.pollAnswered_beacons x _ _ _ _
    · exact ended.beacons.burstAnswered x _

theorem State.Lit.receiveReply_beacons (h : s.Lit) (cs : List Char9) : (s.receiveReply cs).BeaconsSound := by
  unfold State.receiveReply
  split
  · exact h.beacons
  · split
    · exact h.beacons
    · exact h.endExchange_beacons _ _
    · exact h.endExchange_beacons _ _

theorem State.BeaconsSound.airtimeOver (h : s.BeaconsSound) (st : Nat) : (s.airtimeOver st).BeaconsSound :=
  (h.acts (((acts_releaseGrant s st).trans (acts_setWaitIdle _ st true)).trans (acts_arbitrate _ _))).recordMiss st

theorem State.BeaconsSound.beginBurst (h : s.BeaconsSound) (st : Nat) : (s.beginBurst st).BeaconsSound := by
  have begun : (s.setLine { s.line with
      burstWaits := s.line.burstWaits.filter (fun x => decide (x ≠ st)) }).BeaconsSound := h.same rfl rfl
  unfold State.beginBurst
  dsimp only
  split
  · exact begun.acts ((acts_releaseGrant _ st).trans (acts_arbitrate _ _))
  · exact (begun.acts (acts_formBurst _ st)).same rfl rfl

/-! ### The tables, the stations and the parameters as requests change them -/

theorem State.BeaconsSound.replaceCrew (h : s.BeaconsSound) (c : Nat) (x : Crew) :
    (s.replaceCrew c x).BeaconsSound := by
  rw [replaceCrew_rest]
  exact h.same rfl rfl

theorem State.BeaconsSound.changeGroup (h : s.BeaconsSound) (st g : Nat) : (s.changeGroup st g).BeaconsSound := by
  have released := h.acts (acts_releaseGrant s st)
  unfold State.changeGroup
  dsimp only
  split
  · exact h
  · refine State.BeaconsSound.acts ?_ ((acts_arbitrate _ _).trans (acts_arbitrate _ g))
    split
    · exact (released.acts (acts_returnItems _ st)).same rfl rfl
    · exact released.same rfl rfl

theorem State.BeaconsSound.leaveService (h : s.BeaconsSound) (st : Nat) : (s.leaveService st).BeaconsSound :=
  (h.same (t := ((s.putStation st _).dropFollowUp st).voidExchange st) rfl rfl).acts (acts_flush _ st)

theorem State.BeaconsSound.enterService (h : s.BeaconsSound) (st : Nat) : (s.enterService st).BeaconsSound :=
  (h.same (t := s.putStation st _) rfl rfl).acts (acts_arbitrate _ _)

theorem State.BeaconsSound.defineStation (h : s.BeaconsSound) (st g : Nat) (v : Service) (ns : List Nat) :
    (s.defineStation st g v ns).BeaconsSound := by
  have defined := h.changeStation st ⟨true, g, v, .outOfService, 0, none, false, 0#8, true, ns⟩
  unfold State.defineStation
  dsimp only
  split
  · exact defined.enterService st
  · exact defined

theorem State.BeaconsSound.redefineStation (h : s.BeaconsSound) (st g : Nat) (v : Service) (ns : List Nat) :
    (s.redefineStation st g v ns).BeaconsSound := by
  unfold State.redefineStation
  dsimp only
  generalize Station.reported _ = a
  have posted : (if a = (s.station st).reported then s else s.post (.station st)).BeaconsSound := by
    split
    · exact h
    · exact h.post _
  have regrouped := State.BeaconsSound.changeGroup
    (posted.same (t := State.putStation _ st { s.station st with setting := v, neighbours := ns }) rfl rfl) st g
  split
  · exact regrouped.leaveService st
  · split
    · exact regrouped.enterService st
    · exact regrouped

theorem State.BeaconsSound.removeStation (h : s.BeaconsSound) (st : Nat) : (s.removeStation st).BeaconsSound :=
  ((h.post (.station st)).leaveService st).same rfl rfl

theorem State.BeaconsSound.useParams (h : s.BeaconsSound) (p : Params) : (s.useParams p).BeaconsSound := by
  have restarted : (forEach (List.range' 1 8) (State.restartIfChanged s.store.params.pattern)
      (s.setStore { s.store with params := p })).BeaconsSound :=
    State.BeaconsSound.each (fun z _ k => k.restartIfChanged _ z) (h.same rfl rfl)
  unfold State.useParams
  dsimp only
  split
  · exact restarted.armSilence
  · exact restarted

end Sys2Proof.Machine
end

section
/-!
SUPPORT. The requests, the host link and the commands keep the beacons true to the call book. It settles O55.
-/

namespace Sys2Proof.Machine

/-! ### The requests -/

/-- The state that a request leaves has its beacons true to its call book. -/
def LeavesLit (a : Answer) : Prop := a.2.2.BeaconsSound

variable {s : State}

theorem leavesLit_withOperands {α : Type} {f : α → Answer} (h : s.BeaconsSound) (o : Option α)
    (hf : ∀ x, LeavesLit (f x)) : LeavesLit (s.withOperands o f) := by
  cases o with
  | none => exact h
  | some x => exact hf x

theorem leavesLit_unlessSaving {a : Answer} (h : s.BeaconsSound) (ha : LeavesLit a) :
    LeavesLit (s.unlessSaving a) := by
  unfold State.unlessSaving
  split
  · exact h
  · exact ha

theorem leavesLit_onOpenCall {f : Call → Answer} (h : s.BeaconsSound) (n : Nat)
    (hf : ∀ c, s.findCall n = some c → c.state ≠ .closed → LeavesLit (f c)) : LeavesLit (s.onOpenCall n f) := by
  unfold State.onOpenCall
  split
  · exact h
  · split
    · exact h
    · next c found =>
      split
      · exact h
      · next opened => exact hf c found opened

theorem leavesLit_raise (h : s.Lit) (p : List Byte) : LeavesLit (reqRaise p s) := by
  refine leavesLit_withOperands h.beacons _ fun o => ?_
  split
  · exact h.beacons
  · split
    · exact h.beacons
    · split
      · exact h.beacons
      · next u slot =>
        have free := nextNumber_free (obtainSlot_sound h.book slot).1.capacity
        refine State.BeaconsSound.acts ?_ (acts_startCall _ _ _)
        exact (h.beacons.obtainSlot h.book slot).addCall free rfl

theorem leavesLit_close (h : s.Lit) (r : CloseReason) (p : List Byte) (contents : Nat → List Byte) :
    LeavesLit (s.withOperands (readTwo p) fun n =>
      s.onOpenCall n fun _ => (s.closeCall r n).answer (contents n)) :=
  leavesLit_withOperands h.beacons _ fun n => leavesLit_onOpenCall h.beacons n fun c found opened => by
    obtain rfl := State.findCall_number found
    exact h.closeCall_beacons r found opened

theorem leavesLit_advance (h : s.BeaconsSound) (p : List Byte) : LeavesLit (reqAdvance p s) :=
  leavesLit_withOperands h _ fun n => leavesLit_onOpenCall h n fun c _ _ => by
    split
    · exact h.acts (acts_advanceCall s n)
    · exact h

theorem leavesLit_direct (h : s.BeaconsSound) (p : List Byte) : LeavesLit (reqDirect p s) :=
  leavesLit_withOperands h _ fun o => leavesLit_onOpenCall h o.call fun c _ _ => by
    split
    · exact h
    · split
      · exact h
      · split
        · exact h
        · exact h.acts (acts_directStep s _ _ _ _)

theorem State.BeaconsSound.definePoint (h : s.BeaconsSound) (st i l : Nat) (cls : Cls) (text : Text) :
    (s.definePoint st i l cls text).BeaconsSound := by
  unfold State.definePoint
  split <;> exact h.same rfl rfl

theorem leavesLit_setCallpoint (h : s.BeaconsSound) (p : List Byte) : LeavesLit (reqSetCallpoint p s) := by
  refine leavesLit_withOperands h _ fun o => leavesLit_unlessSaving h ?_
  split
  · unfold State.callpointDefine
    split
    · exact h
    · split
      · exact h
      · split
        · exact h
        · exact h.definePoint _ _ _ _ _
  · split
    · unfold State.callpointRemove
      split
      · exact h
      · split
        · exact h
        · split
          · exact h
          · exact h.same rfl rfl
          · exact h.same rfl rfl
    · exact h

theorem leavesLit_setCrew (h : s.BeaconsSound) (p : List Byte) : LeavesLit (reqSetCrew p s) := by
  refine leavesLit_withOperands h _ fun o => leavesLit_unlessSaving h ?_
  dsimp only
  split
  · exact h
  · split
    · exact h
    · split
      · split
        · exact h
        · exact h.replaceCrew _ _
      · split
        · exact h
        · exact h.replaceCrew _ _

theorem leavesLit_setPool (h : s.BeaconsSound) (p : List Byte) : LeavesLit (reqSetPool p s) := by
  refine leavesLit_withOperands h _ fun o => leavesLit_unlessSaving h ?_
  split
  · exact h
  · exact h.same rfl rfl

theorem leavesLit_setLadder (h : s.BeaconsSound) (p : List Byte) : LeavesLit (reqSetLadder p s) := by
  refine leavesLit_withOperands h _ fun o => leavesLit_unlessSaving h ?_
  split
  · exact h
  · exact h.same rfl rfl

theorem leavesLit_setStation (h : s.BeaconsSound) (p : List Byte) : LeavesLit (reqSetStation p s) := by
  refine leavesLit_withOperands h _ fun o => leavesLit_unlessSaving h ?_
  split
  · unfold State.stationDefine
    split
    · exact h
    · split
      · exact h
      · split
        · exact h.redefineStation _ _ _ _
        · exact h.defineStation _ _ _ _
  · split
    · unfold State.stationRemove
      split
      · exact h
      · split
        · exact h
        · exact h.removeStation _
    · exact h

theorem leavesLit_beaconHold (h : s.BeaconsSound) (p : List Byte) : LeavesLit (reqBeaconHold p s) := by
  refine leavesLit_withOperands h _ fun o => ?_
  split
  · unfold State.beaconHold
    split
    · exact h
    · split
      · exact h.setHold _ _
      · exact h
  · split
    · unfold State.beaconRelease
      split
      · exact h.setHold _ _
      · exact h
    · exact h

theorem leavesLit_setBeacon (h : s.BeaconsSound) (p : List Byte) : LeavesLit (reqSetBeacon p s) := by
  refine leavesLit_withOperands h _ fun o => leavesLit_unlessSaving h ?_
  split
  · exact h
  · split
    · exact h
    · split
      · exact h
      · exact h.setIdle _ _

theorem leavesLit_setParams (h : s.BeaconsSound) (p : List Byte) : LeavesLit (reqSetParams p s) :=
  leavesLit_withOperands h _ fun _ => leavesLit_unlessSaving h (h.useParams _)

theorem leavesLit_store (h : s.BeaconsSound) (p : List Byte) : LeavesLit (reqStore p s) :=
  leavesLit_withOperands h _ fun _ => leavesLit_unlessSaving h
    ((h.setStore _).post .part)

theorem leavesLit_reset (h : s.BeaconsSound) (p : List Byte) : LeavesLit (reqReset p s) :=
  leavesLit_withOperands h _ fun _ => h.setLink _

theorem leavesLit_queries (h : s.BeaconsSound) (p : List Byte) :
    LeavesLit (reqQueryCall p s) ∧ LeavesLit (reqQueryCrew p s) ∧ LeavesLit (reqQueryPool p s) ∧
    LeavesLit (reqQueryPager p s) ∧ LeavesLit (reqQueryLadder p s) ∧ LeavesLit (reqQueryQueue p s) ∧
    LeavesLit (reqQueryStation p s) := by
  refine ⟨?_, ?_, ?_, ?_, ?_, ?_, ?_⟩
  all_goals refine leavesLit_withOperands h _ fun _ => ?_
  all_goals repeat' split
  all_goals exact h

/-- Whatever a valid frame asks for, the beacons stay true to the call book. -/
theorem leavesLit_serve (h : s.Lit) (kind : Byte) (p : List Byte) : LeavesLit (serve kind p s) := by
  have hb := h.beacons
  obtain ⟨call, crew, pool, pager, ladder, queue, station⟩ := leavesLit_queries hb p
  have lists : ∀ (o : Option Unit) (f : List Byte), LeavesLit (s.withOperands o fun _ => s.answer f) :=
    fun o _ => leavesLit_withOperands hb o fun _ => hb
  unfold serve
  split
  · exact leavesLit_raise h p
  · exact leavesLit_close h .cleared p _
  · exact leavesLit_close h .cancelled p _
  · exact call
  · exact lists _ _
  · exact leavesLit_setCallpoint hb p
  · exact leavesLit_setCrew hb p
  · exact leavesLit_setPool hb p
  · exact crew
  · exact pool
  · exact pager
  · exact leavesLit_setLadder hb p
  · exact ladder
  · exact leavesLit_advance hb p
  · exact leavesLit_direct hb p
  · exact lists _ _
  · exact queue
  · exact leavesLit_setStation hb p
  · exact station
  · exact leavesLit_beaconHold hb p
  · exact lists _ _
  · exact leavesLit_setBeacon hb p
  · exact leavesLit_setParams hb p
  · exact leavesLit_store hb p
  · exact lists _ _
  · exact leavesLit_reset hb p
  · exact hb

/-! ### The host link (chapter 9) -/

theorem State.BeaconsSound.heardHost (h : s.BeaconsSound) : s.heardHost.BeaconsSound := by
  unfold State.heardHost
  split
  · exact (h.setLink _).armSilence.post .part
  · exact h.armSilence

theorem State.Lit.actOnFrame_beacons (h : s.Lit) (f : RxFrame) : (State.actOnFrame f s).BeaconsSound := by
  have heard : s.heardHost.Lit := h.after (moves_heardHost s) h.beacons.heardHost
  unfold State.actOnFrame
  split
  · exact h.beacons
  · dsimp only
    split
    · exact heard.beacons
    · split
      · exact heard.beacons
      · exact State.BeaconsSound.setLink (leavesLit_serve heard f.kind f.payload) _

theorem State.Lit.takeFrame (f : RxFrame) (s : State) (h : s.Lit) : (State.takeFrame f s).Lit :=
  ⟨(run_takeFrame f s).bookSound h.book, (h.actOnFrame_beacons f).sendReady⟩

theorem State.Lit.receiveChars_beacons (h : s.Lit) (cs : List Byte) : (s.receiveChars cs).BeaconsSound := by
  have held : (s.setLink { s.link with rx := (s.link.rx.take cs).2 }).Lit :=
    ⟨(run_setRx s _).bookSound h.book, h.beacons.setLink _⟩
  unfold State.receiveChars
  split
  · exact h.beacons
  · exact (held.each State.Lit.takeFrame).beacons

/-! ### The commands -/

/-- Every end of a command has the beacons true to the call book. -/
def EndsLit (o : Host.Outcome State Fault Refusal) : Prop := ∀ t, o = .next t → t.BeaconsSound

theorem endsLit_next {t : State} (h : t.BeaconsSound) : EndsLit (.next t) := by
  rintro _ ⟨⟩
  exact h

theorem endsLit_event {t : State} (h : t.BeaconsSound) : EndsLit (.next t.sendReady) := endsLit_next h.sendReady

theorem endsLit_reset (cause : Cause) (pending : List Instr) (e : Eeprom) (low : Bool) :
    EndsLit (.next (State.afterReset cause pending e low)) := endsLit_next (afterReset_beacons cause pending e low)

/-- A command that acts where its event is due, and else changes nothing. -/
theorem endsLit_ite {p : Prop} [Decidable p] {o : Host.Outcome State Fault Refusal} (ho : p → EndsLit o)
    (hs : s.BeaconsSound) : EndsLit (if p then o else .next s) := by
  split
  · next hp => exact ho hp
  · exact endsLit_next hs

theorem endsLit_startUpLoadEnd (h : s.Lit) (found : EepromRead) : EndsLit (execStartUpLoadEnd found s) :=
  endsLit_ite (fun due => endsLit_event (load_beaconsSound h.book due.1 _ _)) h.beacons

theorem endsLit_repeatExpiry (h : s.BeaconsSound) (n : Nat) : EndsLit (execRepeatExpiry n s) := by
  unfold execRepeatExpiry
  cases s.findCall n with
  | none => exact endsLit_next h
  | some c => exact endsLit_ite (fun _ => endsLit_event (h.acts (acts_sendRepeat s c))) h

theorem endsLit_stepDeadlineExpiry (h : s.BeaconsSound) (n : Nat) : EndsLit (execStepDeadlineExpiry n s) := by
  unfold execStepDeadlineExpiry
  cases s.findCall n with
  | none => exact endsLit_next h
  | some c => exact endsLit_ite (fun _ => endsLit_event (h.acts (acts_advanceCall s n))) h

theorem endsLit_arrivalExpiry (h : s.BeaconsSound) (n : Nat) : EndsLit (execArrivalExpiry n s) := by
  unfold execArrivalExpiry
  cases s.findCall n with
  | none => exact endsLit_next h
  | some c => exact endsLit_ite (fun _ => endsLit_event ((h.releaseCrew c).acts (acts_advanceCall _ _))) h

theorem endsLit_beaconPeriodEnd (h : s.BeaconsSound) (z : Nat) : EndsLit (execBeaconPeriodEnd z s) := by
  unfold execBeaconPeriodEnd
  cases (s.beacon z).driving with
  | none => exact endsLit_next h
  | some d => exact endsLit_ite (fun _ => endsLit_next (h.beaconTick z)) h

theorem endsLit_beaconOnTimeEnd (h : s.BeaconsSound) (z : Nat) : EndsLit (execBeaconOnTimeEnd z s) := by
  unfold execBeaconOnTimeEnd
  cases (s.beacon z).driving with
  | none => exact endsLit_next h
  | some d => exact endsLit_ite (fun _ => endsLit_next (h.beaconTick z)) h

theorem endsLit_silenceTimerExpiry (h : s.BeaconsSound) : EndsLit (execSilenceTimerExpiry s) :=
  endsLit_ite (fun _ => endsLit_event (((h.setLink _).post .part).acts (acts_advanceAllReferred _))) h

/-- The end of a frame frees no record but a CLOSED one (R7). -/
theorem State.Lit.freeSent_beacons (h : s.Lit) {f : Frame} (sending : s.link.sending = some f) (hcts : Bool) :
    ((s.setLink { s.link with sending := none, hcts := hcts }).freeSent f).BeaconsSound := by
  have ended : (s.setLink { s.link with sending := none, hcts := hcts }).Lit :=
    ⟨h.book.of_book rfl rfl nofun id, h.beacons.setLink _⟩
  rcases freeSent_eq (s.setLink { s.link with sending := none, hcts := hcts }) f with ⟨-, e⟩ | ⟨n, frees, e⟩
  · rw [e]
    exact ended.beacons
  · rw [e]
    exact ended.beacons.without ended.book (h.book.frees f n sending frees)

theorem endsLit_frameSent (h : s.Lit) (hcts : Bool) : EndsLit (execFrameSent hcts s) := by
  unfold execFrameSent
  split
  · exact endsLit_event (h.beacons.setLink _)
  · next f sending =>
    dsimp only
    split
    · exact endsLit_reset _ _ _ _
    · exact endsLit_event (h.freeSent_beacons sending hcts)

theorem State.BeaconsSound.endStore (h : s.BeaconsSound) (r : StoreResult) (e : Eeprom) :
    (s.endStore r e).BeaconsSound := (h.setStore _).post .part

theorem endsLit_storeComplete (h : s.BeaconsSound) : EndsLit (execStoreComplete s) := by
  unfold execStoreComplete
  split
  · exact endsLit_event (h.endStore _ _)
  · exact endsLit_next h

theorem endsLit_storeFailed (h : s.BeaconsSound) : EndsLit (execStoreFailed s) := by
  unfold execStoreFailed
  split
  · exact endsLit_event (h.endStore _ _)
  · exact endsLit_next h

theorem endsLit_pollExchangeBegin (h : s.BeaconsSound) : EndsLit (execPollExchangeBegin s) := by
  unfold execPollExchangeBegin
  split
  · exact endsLit_next (h.same rfl rfl)
  · exact endsLit_next h

theorem endsLit_burstExchangeBegin (h : s.BeaconsSound) : EndsLit (execBurstExchangeBegin s) := by
  unfold execBurstExchangeBegin
  split
  · exact endsLit_next (h.beginBurst _)
  · exact endsLit_next h

theorem endsLit_replyWindowExpiry (h : s.Lit) : EndsLit (execReplyWindowExpiry s) := by
  unfold execReplyWindowExpiry
  cases s.line.exchange with
  | none => exact endsLit_next h.beacons
  | some x => exact endsLit_event (h.endExchange_beacons x none)

theorem endsLit_replyGapAbandon (h : s.Lit) : EndsLit (execReplyGapAbandon s) := by
  unfold execReplyGapAbandon
  cases s.line.exchange with
  | none => exact endsLit_next h.beacons
  | some x => exact endsLit_event (h.endExchange_beacons x none)

theorem endsLit_malformedReplyStart (h : s.Lit) (cs : List Char9) : EndsLit (execMalformedReplyStart cs s) := by
  unfold execMalformedReplyStart
  cases s.line.exchange with
  | none => exact endsLit_next h.beacons
  | some x => exact endsLit_ite (fun _ => endsLit_event (h.endExchange_beacons x none)) h.beacons

/-- Every command keeps the beacons true to the call book. -/
theorem exec_endsLit (h : s.Lit) (i : Instr) : EndsLit (exec i s) := by
  have hb := h.beacons
  have unchanged := endsLit_next hb
  cases i with
  | powerOn => exact endsLit_reset _ _ _ _
  | rstnLow =>
    show EndsLit (execRstnLow s)
    unfold execRstnLow
    split
    · exact unchanged
    · exact endsLit_reset _ _ _ _
  | rstnHigh => exact endsLit_ite (fun _ => endsLit_reset _ _ _ _) hb
  | startUpLoadEnd found => exact endsLit_startUpLoadEnd h found
  | siteClockTick =>
    show EndsLit (execSiteClockTick s)
    unfold execSiteClockTick
    split
    · exact unchanged
    · exact endsLit_next (hb.same rfl rfl)
  | repeatExpiry n => exact endsLit_repeatExpiry hb n
  | stepDeadlineExpiry n => exact endsLit_stepDeadlineExpiry hb n
  | arrivalExpiry n => exact endsLit_arrivalExpiry hb n
  | dedupeEntryExpiry | locationExpiry => exact endsLit_next (hb.same rfl rfl)
  | airtimeDeadlineExpiry st => exact endsLit_ite (fun _ => endsLit_event (hb.airtimeOver st)) hb
  | pollDue st => exact endsLit_ite (fun _ => endsLit_next (hb.same rfl rfl)) hb
  | pollExchangeBegin => exact endsLit_pollExchangeBegin hb
  | burstExchangeBegin => exact endsLit_burstExchangeBegin hb
  | beaconPeriodEnd z => exact endsLit_beaconPeriodEnd hb z
  | beaconOnTimeEnd z => exact endsLit_beaconOnTimeEnd hb z
  | silenceTimerExpiry => exact endsLit_silenceTimerExpiry hb
  | frameBadCheck | wrongLength => exact endsLit_next (h.receiveChars_beacons _)
  | frameGap | lineBreak | characterError => exact endsLit_next ((h.receiveChars_beacons _).setLink _)
  | hctsAsserted => exact endsLit_event (hb.setLink _)
  | frameSent hcts => exact endsLit_frameSent h hcts
  | storeComplete => exact endsLit_storeComplete hb
  | storeFailed => exact endsLit_storeFailed hb
  | replyWindowExpiry => exact endsLit_replyWindowExpiry h
  | replyGapAbandon => exact endsLit_replyGapAbandon h
  | malformedReplyStart cs => exact endsLit_malformedReplyStart h cs
  | pollReply cs | burstReply cs => exact endsLit_event (h.receiveReply_beacons cs)
  | _ => exact endsLit_next (h.receiveChars_beacons _)

/-- Settles O55: the command that a step takes from the queue keeps the beacons true to the call book. -/
theorem stepsKeepTheBeaconsSound : Obligations.StepsKeepTheBeaconsSound := by
  intro s t book beacons ht
  unfold step at ht
  split at ht
  · cases ht
    exact beacons
  · next c rest _ =>
    have taken : (s.setPending rest).Lit :=
      State.Lit.after ⟨book, beacons⟩ (calm_setPending s rest).moves (beacons.same rfl rfl)
    exact exec_endsLit taken c t ht

end Sys2Proof.Machine
end

section
/-!
SUPPORT. The receiver of the host link, from the frames that it hands on down to the levels of its line (R162 to R164,
R188). It settles O8.
-/

namespace Sys2Proof.Machine

/-! ### Reading a frame (R163, R164) -/

/-- A wrong length shows at once (R164). -/
theorem readFrame_of_long {n : Byte} (long : 250 < n.toNat) (rest : List Byte) :
    readFrame (n :: rest) = .discard := if_pos long

theorem readFrame_of_short {n : Byte} {rest : List Byte} (fits : n.toNat ≤ 250) (short : rest.length < n.toNat + 4) :
    readFrame (n :: rest) = .incomplete :=
  (if_neg (Nat.not_lt.mpr fits)).trans (if_pos short)

/-- A frame whose characters have all come is valid exactly with the check of its contents (R164). -/
theorem readFrame_complete (kind tag : Byte) {p : List Byte} (hp : p.length ≤ 250) (check : BitVec 16)
    (more : List Byte) :
    readFrame (BitVec.ofNat 8 p.length :: kind :: tag :: (p ++ encCheck check) ++ more) =
      if check = crc (BitVec.ofNat 8 p.length :: kind :: tag :: p) then .valid ⟨kind, tag, p⟩ else .discard := by
  have count : (BitVec.ofNat 8 p.length : Byte).toNat = p.length := toNat_count (by omega)
  have whole : ¬ (kind :: tag :: (p ++ encCheck check ++ more)).length < p.length + 4 := by
    simp [encCheck_length]
    omega
  have body : (kind :: tag :: (p ++ encCheck check ++ more)).take (p.length + 2) = kind :: tag :: p := by simp
  have sent : ((kind :: tag :: (p ++ encCheck check ++ more)).drop (p.length + 2)).take 2 = encCheck check := by
    simp [encCheck, enc2]
  simp only [List.cons_append, readFrame, count, Config.maxPayload, Nat.not_lt.mpr hp, if_false, whole, body, sent,
    encCheck_inj]

/-- What is read of a frame once it is complete, or is seen to be wrong, does not change with what follows. -/
theorem readFrame_append {xs : List Byte} (h : readFrame xs ≠ .incomplete) (more : List Byte) :
    readFrame (xs ++ more) = readFrame xs := by
  cases xs with
  | nil => exact absurd rfl h
  | cons n rest =>
    by_cases long : 250 < n.toNat
    · rw [List.cons_append, readFrame_of_long long, readFrame_of_long long]
    · have whole : n.toNat + 4 ≤ rest.length :=
        Nat.not_lt.mp fun short => h (readFrame_of_short (Nat.not_lt.mp long) short)
      have body : (rest ++ more).take (n.toNat + 2) = rest.take (n.toNat + 2) :=
        List.take_append_of_le_length (by omega)
      have check : ((rest ++ more).drop (n.toNat + 2)).take 2 = (rest.drop (n.toNat + 2)).take 2 := by
        rw [List.drop_append_of_le_length (by omega)]
        exact List.take_append_of_le_length (by simp; omega)
      have still : ¬ (rest ++ more).length < n.toNat + 4 := by simp; omega
      simp only [List.cons_append, readFrame, body, check, still, Nat.not_lt.mpr whole]

/-- A valid frame is among the characters that came. -/
theorem readFrame_valid_length {xs : List Byte} {f : RxFrame} (h : readFrame xs = .valid f) :
    f.payload.length + 5 ≤ xs.length := by
  cases xs with
  | nil => cases h
  | cons n rest =>
    simp only [readFrame] at h
    split at h
    · cases h
    · split at h
      · cases h
      · next whole =>
        split at h
        · next kind tag payload body =>
          split at h
          · cases h
            have size := congrArg List.length body
            simp only [List.length_take, List.length_cons] at size ⊢
            omega
          · cases h
        · cases h

/-! ### The search for frames (R163, R164) -/

theorem scan_discarded {rest : List Byte} (h : readFrame rest = .discard) :
    scan 0 (Config.startChar :: rest) = scan 0 rest := by simp [scan, h]

theorem scan_taken {rest : List Byte} {f : RxFrame} (h : readFrame rest = .valid f) :
    scan 0 (Config.startChar :: rest) =
      (f :: (scan (f.payload.length + 5) rest).1, (scan (f.payload.length + 5) rest).2) := by simp [scan, h]

theorem scan_other {c : Byte} (h : c ≠ Config.startChar) (rest : List Byte) : scan 0 (c :: rest) = scan 0 rest := by
  simp [scan, h]

/-- Characters without a start character bring nothing (R163). -/
theorem scan_idle {noise : List Byte} (h : Config.startChar ∉ noise) : scan 0 noise = ([], []) := by
  have passed := scan_noise noise [] h
  rwa [List.append_nil] at passed

/-- A frame with a wrong check is passed over by its start character alone (R164). -/
theorem scan_wrongCheck (kind tag : Byte) {p : List Byte} (hp : p.length ≤ 250) {check : BitVec 16}
    (wrong : check ≠ crc (BitVec.ofNat 8 p.length :: kind :: tag :: p)) (rest : List Byte) :
    scan 0 (Config.startChar :: (BitVec.ofNat 8 p.length :: kind :: tag :: (p ++ encCheck check) ++ rest)) =
      scan 0 (BitVec.ofNat 8 p.length :: kind :: tag :: (p ++ encCheck check) ++ rest) :=
  scan_discarded ((readFrame_complete kind tag hp check rest).trans (if_neg wrong))

/-- Frames with noise before, between and after them are handed on in order (R163). -/
theorem scan_frames {fs : List (List Byte × RxFrame)} {tail : List Byte}
    (h : ∀ x ∈ fs, Config.startChar ∉ x.1 ∧ x.2.payload.length ≤ 250) (quiet : Config.startChar ∉ tail) :
    scan 0 (fs.flatMap (fun x => x.1 ++ encodeFrame x.2.kind x.2.tag x.2.payload) ++ tail) =
      (fs.map Prod.snd, []) := by
  induction fs with
  | nil => exact scan_idle quiet
  | cons x xs ih =>
    obtain ⟨noise, fits⟩ := h x List.mem_cons_self
    rw [List.flatMap_cons, List.append_assoc, List.append_assoc, scan_noise _ _ noise, scan_encode _ _ _ _ fits,
      ih fun y hy => h y (List.mem_cons_of_mem x hy)]
    rfl

/-- However characters are grouped, the frames they complete and what is held at their end are the same (R163, R164).
-/
theorem scan_append_within (k : Nat) (a b : List Byte) (h : k ≤ a.length) : scan k (a ++ b) =
    ((scan k a).1 ++ (scan 0 ((scan k a).2 ++ b)).1, (scan 0 ((scan k a).2 ++ b)).2) := by
  induction k, a using scan.induct with
  | case1 k =>
    obtain rfl : k = 0 := Nat.le_zero.mp h
    rfl
  | case2 skip c rest ih => exact ih (Nat.le_of_succ_le_succ h)
  | case3 rest reads => simp [scan, reads]
  | case4 rest reads ih =>
    rw [List.cons_append, scan_discarded reads,
      scan_discarded ((readFrame_append (by simp [reads]) b).trans reads)]
    exact ih (Nat.zero_le _)
  | case5 rest f reads ih =>
    have reads' := (readFrame_append (by simp [reads]) b).trans reads
    rw [List.cons_append, scan_taken reads, scan_taken reads', ih (readFrame_valid_length reads)]
    rfl
  | case6 c rest other ih =>
    rw [List.cons_append, scan_other other, scan_other other]
    exact ih (Nat.zero_le _)

theorem scan_append (a b : List Byte) : scan 0 (a ++ b) =
    ((scan 0 a).1 ++ (scan 0 ((scan 0 a).2 ++ b)).1, (scan 0 ((scan 0 a).2 ++ b)).2) :=
  scan_append_within 0 a b (Nat.zero_le _)

/-! ### The beginning of a frame (R163) -/

theorem encodeFrame_length (kind tag : Byte) (p : List Byte) : (encodeFrame kind tag p).length = p.length + 6 := by
  simp [encodeFrame, encCheck_length]

/-- The characters of a frame after its start character (R163). -/
theorem encodeFrame_eq_cons (kind tag : Byte) (p : List Byte) : encodeFrame kind tag p = Config.startChar ::
    (BitVec.ofNat 8 p.length :: kind :: tag ::
      (p ++ encCheck (crc (BitVec.ofNat 8 p.length :: kind :: tag :: p)))) := rfl

/-- A frame that lacks a character is still being received. -/
theorem readFrame_begun (kind tag : Byte) {p : List Byte} (hp : p.length ≤ 250) {k : Nat} (begun : k < p.length + 5) :
    readFrame (((encodeFrame kind tag p).drop 1).take k) = .incomplete := by
  rw [encodeFrame_eq_cons]
  cases k with
  | zero => rfl
  | succ k =>
    have count : (BitVec.ofNat 8 p.length : Byte).toNat = p.length := toNat_count (by omega)
    exact readFrame_of_short (by omega) (by rw [count, List.length_take]; omega)

/-- Of a frame that lacks a character, the receiver holds what has come (R163). -/
theorem scan_begun (kind tag : Byte) {p : List Byte} (hp : p.length ≤ 250) {m : Nat} (begun : m < p.length + 6) :
    scan 0 ((encodeFrame kind tag p).take m) = ([], (encodeFrame kind tag p).take m) := by
  cases m with
  | zero => rfl
  | succ k =>
    have reads := readFrame_begun kind tag hp (Nat.lt_of_succ_lt_succ begun)
    rw [encodeFrame_eq_cons] at reads ⊢
    rw [List.take_succ_cons]
    simp only [List.drop_succ_cons, List.drop_zero] at reads
    simp [scan, reads]

/-! ### Characters that arrive one by one -/

theorem searching_take (cs : List Byte) :
    Receiver.searching.take cs = ((scan 0 cs).1, Receiver.holding (scan 0 cs).2) := rfl

theorem holding_take (held cs : List Byte) : (Receiver.holding held).take cs =
    ((scan 0 (held ++ cs)).1, Receiver.holding (scan 0 (held ++ cs)).2) := by
  cases held <;> rfl

theorem receiveChars_held {s : State} (low : s.store.rstnLow = true) (cs : List Byte) : s.receiveChars cs = s :=
  if_pos low

theorem receiveChars_up {s : State} (up : s.store.rstnLow = false) (cs : List Byte) : s.receiveChars cs =
    forEach (s.link.rx.take cs).1 State.takeFrame (s.setLink { s.link with rx := (s.link.rx.take cs).2 }) := by
  simp [State.receiveChars, up]

/-- What characters do depends on what the receiver takes of them alone. -/
theorem receiveChars_congr {s : State} {a b : List Byte} (h : s.link.rx.take a = s.link.rx.take b) :
    s.receiveChars a = s.receiveChars b := by
  unfold State.receiveChars
  simp only [h]

/-- Characters that bring nothing to a searching receiver change nothing (R163). -/
theorem receiveChars_quiet {s : State} (searching : s.link.rx = .searching) {cs : List Byte}
    (quiet : scan 0 cs = ([], [])) : s.receiveChars cs = s := by
  cases low : s.store.rstnLow with
  | true => exact receiveChars_held low cs
  | false =>
    rw [receiveChars_up low, searching, searching_take, quiet]
    show s.setLink { s.link with rx := .searching } = s
    rw [← searching]
    rfl

/-- A searching receiver takes characters up in any grouping, where the first of them complete no frame (R163). -/
theorem receiveChars_append {s : State} (searching : s.link.rx = .searching) {a : List Byte}
    (noFrame : (scan 0 a).1 = []) (b : List Byte) : (s.receiveChars a).receiveChars b = s.receiveChars (a ++ b) := by
  cases low : s.store.rstnLow with
  | true => rw [receiveChars_held low, receiveChars_held low, receiveChars_held low]
  | false =>
    have held : s.receiveChars a = s.setLink { s.link with rx := Receiver.holding (scan 0 a).2 } := by
      rw [receiveChars_up low, searching, searching_take, noFrame]
      rfl
    have up : (s.receiveChars a).store.rstnLow = false := by rw [held]; exact low
    rw [receiveChars_up up, held, receiveChars_up low, State.setLink_link, holding_take, searching, searching_take,
      scan_append a b, noFrame]
    rfl

/-- A frame acts as its characters do, one by one (R163). -/
theorem receiveFrame_by_character {s : State} (searching : s.link.rx = .searching) (kind tag : Byte) {p : List Byte}
    (hp : p.length ≤ 250) : forEach (encodeFrame kind tag p) (fun c s => s.receiveChars [c]) s =
      s.receiveFrame kind tag p := by
  have upTo : ∀ m, m ≤ p.length + 6 → forEach ((encodeFrame kind tag p).take m) (fun c s => s.receiveChars [c]) s =
      s.receiveChars ((encodeFrame kind tag p).take m) := fun m => by
    induction m with
    | zero => exact fun _ => (receiveChars_quiet searching rfl).symm
    | succ m ih =>
      intro hm
      have there : m < (encodeFrame kind tag p).length := by rw [encodeFrame_length]; omega
      rw [List.take_succ_eq_append_getElem there, forEach, List.foldl_append]
      exact (congrArg (State.receiveChars · _) (ih (by omega))).trans
        (receiveChars_append searching (by rw [scan_begun kind tag hp hm]) _)
  have all := upTo _ (encodeFrame_length kind tag p).le
  rwa [List.take_length] at all

/-! ### The bits of the characters (R162) -/

/-- The bit times of a character on the line one by one: start bit, data bits, stop bit (R162). -/
theorem hostBits_levels (c : Byte) : (hostBits c)[0]? = some .space ∧ (hostBits c)[9]? = some .mark ∧
    ∀ i, i < 8 → (hostBits c)[1 + i]? = some (if c.getLsbD i then .mark else .space) := by
  refine ⟨rfl, rfl, fun i hi => ?_⟩
  rw [Nat.add_comm, hostBits, charLevels, List.getElem?_cons_succ, List.getElem?_append_left (by simpa using hi),
    List.getElem?_map, List.getElem?_range hi]
  rfl

/-- Signals are read one run of levels after another. -/
theorem readHrxd_append (r : CharReader) (ls more : List LineLevel) : readHrxd r (ls ++ more) =
    ((readHrxd r ls).1 ++ (readHrxd (readHrxd r ls).2 more).1, (readHrxd (readHrxd r ls).2 more).2) := by
  simp only [readHrxd, readLevels_append, List.map_append]

/-- The mark level of an idle line brings no character. -/
theorem readHrxd_mark (n : Nat) : readHrxd .idle (List.replicate n .mark) = ([], .idle) := by
  induction n with
  | zero => rfl
  | succ n ih => exact ih

/-- Characters on the line, with any idle time before each, are read back (R162). -/
theorem readHrxd_chars (cs : List (Nat × Byte)) :
    readHrxd .idle (cs.flatMap fun x => List.replicate x.1 .mark ++ hostBits x.2) =
      (cs.map fun x => .character x.2, .idle) := by
  induction cs with
  | nil => rfl
  | cons x xs ih =>
    simp only [List.flatMap_cons, readHrxd_append, readHrxd_mark, readHrxd_hostBits, ih]
    rfl

/-- Characters without gaps on HRXD arrive one by one (R162). -/
theorem receiveLevels_hostBits (s : State) (cs : List Byte) :
    s.receiveLevels (cs.flatMap hostBits) = forEach cs (fun c s => s.receiveChars [c]) s := by
  have read : readHrxd .idle (cs.flatMap hostBits) = (cs.map .character, .idle) := by
    have spaced := readHrxd_chars (cs.map fun c => (0, c))
    rw [List.flatMap_map, List.map_map] at spaced
    exact spaced
  rw [State.receiveLevels, read, forEach, List.foldl_map]
  rfl

/-- Each bit time of characters without gaps is one of the character that it belongs to (R162). -/
theorem flatMap_hostBits_getElem? {cs : List Byte} {j i : Nat} {c : Byte} (hc : cs[j]? = some c) (hi : i < 10) :
    (cs.flatMap hostBits)[10 * j + i]? = (hostBits c)[i]? := by
  induction cs generalizing j with
  | nil => cases hc
  | cons x xs ih =>
    rw [List.flatMap_cons]
    cases j with
    | zero =>
      cases hc
      rw [Nat.mul_zero, Nat.zero_add, List.getElem?_append_left (by rw [hostBits_length]; exact hi)]
    | succ j =>
      rw [List.getElem?_append_right (by rw [hostBits_length]; omega), hostBits_length, ← ih hc]
      congr 1
      omega

theorem flatMap_hostBits_length (cs : List Byte) : (cs.flatMap hostBits).length = 10 * cs.length := by
  simp [List.length_flatMap, hostBits_length, Nat.mul_comm]

/-- HTXD carries the characters of the frame being sent without gaps, and else stands at the mark level (R162). -/
theorem htxd_levels (s : State) (k : Nat) : (s.link.sending = none → s.htxd k = .mark) ∧
    ∀ f, s.link.sending = some f → (10 * f.chars.length ≤ k → s.htxd k = .mark) ∧
      ∀ j c i, f.chars[j]? = some c → i < 10 → (hostBits c)[i]? = some (s.htxd (10 * j + i)) := by
  unfold State.htxd
  refine ⟨fun free => by rw [free], fun f sending => ?_⟩
  simp only [sending]
  refine ⟨fun past => ?_, fun j c i hc hi => ?_⟩
  · exact List.getD_eq_default _ _ ((flatMap_hostBits_length f.chars).trans_le past)
  · have level : i < (hostBits c).length := hi
    rw [List.getD_eq_getElem?_getD, flatMap_hostBits_getElem? hc hi, List.getElem?_eq_getElem level]
    rfl

/-! ### The check (R188) -/

/-- One bit of a character in the division of R188: it goes against the bit that leaves the register. -/
def crcTake (r : BitVec 16) (b : Bool) : BitVec 16 := (r <<< 1) ^^^ (if r.msb = b then 0#16 else 0x1021#16)

/-- A register with what is still to come of a character set against it takes the next bit of that. -/
theorem crcBit_xor (r m : BitVec 16) : crcBit (r ^^^ m) = crcTake r m.msb ^^^ (m <<< 1) := by
  unfold crcBit crcTake
  rw [BitVec.msb_xor, BitVec.shiftLeft_xor_distrib]
  cases r.msb <;> cases m.msb <;> simp [BitVec.xor_assoc, BitVec.xor_comm (m <<< 1)]

/-- The check takes a character bit by bit, the most significant first (R188). -/
theorem crcByte_eq (r : BitVec 16) (c : Byte) :
    crcByte r c = ((List.range 8).map fun i => c.getLsbD (7 - i)).foldl crcTake r := by
  have taken : ∀ k ≤ 8, ((List.range k).map fun i => c.getLsbD (7 - i)).foldl crcTake r ^^^
      (c.setWidth 16 <<< (8 + k)) = crcBit^[k] (r ^^^ (c.setWidth 16 <<< 8)) := fun k => by
    induction k with
    | zero => exact fun _ => rfl
    | succ k ih =>
      intro hk
      have next : (c.setWidth 16 <<< (8 + k)).msb = c.getLsbD (7 - k) := by
        rw [BitVec.msb_eq_getLsbD_last, BitVec.getLsbD_shiftLeft, BitVec.getLsbD_setWidth]
        simp [show ¬ 15 < 8 + k by omega, show 15 - (8 + k) = 7 - k by omega, show 7 - k < 16 by omega]
      rw [Function.iterate_succ_apply', ← ih (by omega), crcBit_xor, next, List.range_succ, List.map_append,
        List.foldl_append, ← BitVec.shiftLeft_add]
      rfl
  have gone : c.setWidth 16 <<< (8 + 8) = 0#16 := BitVec.shiftLeft_eq_zero (by decide)
  have all := taken 8 le_rfl
  rw [gone, BitVec.xor_zero] at all
  exact all.symm

theorem crc_eq (cs : List Byte) : crc cs =
    (cs.flatMap fun c => (List.range 8).map fun i => c.getLsbD (7 - i)).foldl crcTake 0xFFFF#16 := by
  unfold crc
  rw [List.foldl_flatMap]
  exact congrArg (fun f => List.foldl f 0xFFFF#16 cs) (funext fun r => funext fun c => crcByte_eq r c)

/-- The check goes out with its high 8 bits first (R188). -/
theorem encCheck_eq (r : BitVec 16) : encCheck r = [(r >>> 8).setWidth 8, r.setWidth 8] := by
  unfold encCheck enc2
  have high : r.toNat / 256 = (r >>> 8).toNat := by simp [Nat.shiftRight_eq_div_pow]
  rw [high]
  rfl

theorem exec_frame {i : Instr} {f : RxFrame} (h : Instr.frame? i = some f) (s : State) :
    exec i s = .next (s.receiveFrame f.kind f.tag f.payload) := by
  cases i <;> cases h <;> rfl

/-- Settles O8: the search is a fold over the characters, and characters are read back from their levels. -/
theorem receiverHandsOnExactlyTheFramesSent : Obligations.ReceiverHandsOnExactlyTheFramesSent := by
  refine ⟨fun fs tail h quiet => scan_frames h quiet, scan_append, fun kind tag p check body rest hp wrong hbody => ?_,
    fun n rest long => scan_discarded (readFrame_of_long long rest), fun c => ⟨hostBits_length c, hostBits_levels c⟩,
    readHrxd_chars, htxd_levels, fun i f s hf hp searching => ?_, crc_eq, encCheck_eq, rfl, fun _ _ _ => rfl⟩
  · subst hbody
    exact scan_wrongCheck kind tag hp wrong rest
  · rw [exec_frame hf, receiveLevels_hostBits, receiveFrame_by_character searching f.kind f.tag hp]

end Sys2Proof.Machine
end

section
/-!
SUPPORT. What damage on the line leaves: discarded frames, frames broken off, breaks and character errors (R162, R164,
R165, R180). It settles O9.
-/

namespace Sys2Proof.Machine

/-! ### Frames that are discarded (R164) -/

/-- A searching receiver that hands on one frame, and then holds nothing, does as the frame alone. -/
theorem receiveChars_one {s : State} (searching : s.link.rx = .searching) {cs : List Byte} {f : RxFrame}
    (fits : f.payload.length ≤ 250) (one : scan 0 cs = ([f], [])) :
    s.receiveChars cs = s.receiveFrame f.kind f.tag f.payload := by
  have alone := scan_encode f.kind f.tag f.payload [] fits
  rw [List.append_nil] at alone
  refine receiveChars_congr ?_
  rw [searching, searching_take, searching_take, one, alone]
  rfl

/-- One frame with noise on both sides of it is handed on (R163). -/
theorem scan_one {before after : List Byte} (f : RxFrame) (fits : f.payload.length ≤ 250)
    (hb : Config.startChar ∉ before) (ha : Config.startChar ∉ after) :
    scan 0 (before ++ encodeFrame f.kind f.tag f.payload ++ after) = ([f], []) := by
  rw [List.append_assoc, scan_noise _ _ hb, scan_encode _ _ _ _ fits, scan_idle ha]

theorem exec_frameBadCheck (kind tag : Byte) (p : List Byte) (check : BitVec 16) (s : State) :
    exec (.frameBadCheck kind tag p check) s = .next (s.receiveChars
      (Config.startChar :: (BitVec.ofNat 8 p.length :: kind :: tag :: (p ++ encCheck check)))) := rfl

/-- A frame with a wrong check leaves its characters to the search, without its start character (R164). -/
theorem scan_badCheck (kind tag : Byte) {p : List Byte} (hp : p.length ≤ 250) {check : BitVec 16}
    (wrong : check ≠ crc (BitVec.ofNat 8 p.length :: kind :: tag :: p)) :
    scan 0 (Config.startChar :: (BitVec.ofNat 8 p.length :: kind :: tag :: (p ++ encCheck check))) =
      scan 0 (BitVec.ofNat 8 p.length :: kind :: tag :: (p ++ encCheck check)) := by
  have passed := scan_wrongCheck kind tag hp wrong []
  rwa [List.append_nil] at passed

/-- A wrong length changes nothing: no length above 250 is a start character (R164). -/
theorem exec_wrongLength {s : State} (searching : s.link.rx = .searching) {n : Byte} (long : 250 < n.toNat) :
    exec (.wrongLength n) s = .next s := by
  have other : n ≠ Config.startChar := by
    rintro rfl
    exact absurd long (by decide)
  refine congrArg Host.Outcome.next (receiveChars_quiet searching ?_)
  rw [scan_discarded (readFrame_of_long long []), scan_other other]
  rfl

/-! ### Frames that are broken off (R165, R180) -/

/-- The receiver has taken the first `j` characters of a frame, the rate having changed since its start character or not
(R163, R180). -/
def Receiver.Begun (r : Receiver) (frame : List Byte) (j : Nat) (changed : Bool) : Prop :=
  j = 0 ∧ r = .searching ∨ 1 ≤ j ∧ r = .receiving (frame.take j) changed

theorem take_append_drop_take {α : Type} (xs : List α) {j m : Nat} (h : j ≤ m) :
    xs.take j ++ (xs.take m).drop j = xs.take m := by
  rw [List.drop_take, ← List.take_add, Nat.add_sub_cancel' h]

/-- A frame during which the rate changed brings nothing itself; complete, it leaves its characters to the search (R180).
-/
theorem take_of_changed {held cs rest : List Byte} {c : Byte} (h : held ++ cs = c :: rest) :
    ((Receiver.receiving held true).take cs).1 = if readFrame rest = .incomplete then [] else (scan 0 rest).1 := by
  simp only [Receiver.take, h]
  cases readFrame rest <;> rfl

/-- More characters of a frame complete nothing while it lacks a character, nor where the rate changed and no later
character of it is a start character (R163, R180). -/
theorem take_of_begun {r : Receiver} {kind tag : Byte} {p : List Byte} {j m : Nat} {changed : Bool}
    (hp : p.length ≤ 250) (hj : j ≤ m) (begun : r.Begun (encodeFrame kind tag p) j changed)
    (lacks : m < p.length + 6 ∨
      1 ≤ j ∧ m = p.length + 6 ∧ changed = true ∧ Config.startChar ∉ (encodeFrame kind tag p).drop 1) :
    (r.take (((encodeFrame kind tag p).take m).drop j)).1 = [] := by
  have joined := take_append_drop_take (encodeFrame kind tag p) hj
  rcases begun with ⟨rfl, rfl⟩ | ⟨started, rfl⟩
  · have short : m < p.length + 6 := lacks.resolve_right fun e => absurd e.1 (by decide)
    rw [searching_take, List.drop_zero, scan_begun kind tag hp short]
  · cases changed with
    | false =>
      have short : m < p.length + 6 := lacks.resolve_right fun e => absurd e.2.2.1 (by decide)
      simp only [Receiver.take, joined, scan_begun kind tag hp short]
    | true =>
      obtain ⟨k, rfl⟩ : ∃ k, m = k + 1 := Nat.exists_eq_add_of_le' (started.trans hj)
      rw [take_of_changed (c := Config.startChar) (rest := ((encodeFrame kind tag p).drop 1).take k) joined]
      rcases lacks with short | ⟨-, -, -, quiet⟩
      · exact if_pos (readFrame_begun kind tag hp (Nat.lt_of_succ_lt_succ short))
      · rw [scan_idle fun h => quiet (List.mem_of_mem_take h), ite_self]

/-- What completes no frame is gone once the frame being received is discarded (R165). -/
theorem receiveChars_dropped {s : State} {cs : List Byte} (noFrame : (s.link.rx.take cs).1 = []) :
    (s.receiveChars cs).dropFrame = { s with link := { s.link with rx := .searching } } := by
  cases low : s.store.rstnLow with
  | true => rw [receiveChars_held low]; rfl
  | false => rw [receiveChars_up low, noFrame]; rfl

/-! ### Breaks and character errors (R162) -/

/-- A character whose stop bit stands at the space level ends as what its data bits make of it (R162). -/
theorem readHrxd_space {data : List LineLevel} (h : data.length = 8) (ls : List LineLevel) :
    readHrxd .idle (.space :: (data ++ .space :: ls)) =
      (hostSignal (bitsOf 8 data, .space) :: (readHrxd .held ls).1, (readHrxd .held ls).2) := by
  have taken := readLevels_data 8 [] data (.space :: ls) (by simp [h])
  simp only [readHrxd, readLevels, CharReader.next, taken, List.nil_append, h]
  rfl

/-- After such a stop bit the line is read on from its next mark level (R162). -/
theorem readHrxd_held (n : Nat) (ls : List LineLevel) :
    readHrxd .held (List.replicate n .space ++ .mark :: ls) = readHrxd .idle ls := by
  induction n with
  | zero => rfl
  | succ n ih => exact ih

/-- A break lasts until the line returns to the mark level (R162). -/
theorem readHrxd_break (n : Nat) (ls : List LineLevel) : readHrxd .idle (List.replicate (10 + n) .space ++ .mark :: ls) =
    (.lineBreak :: (readHrxd .idle ls).1, (readHrxd .idle ls).2) := by
  have split : List.replicate (10 + n) LineLevel.space ++ .mark :: ls =
      .space :: (List.replicate 8 .space ++ .space :: (List.replicate n .space ++ .mark :: ls)) := by
    rw [List.replicate_add]
    rfl
  rw [split, readHrxd_space List.length_replicate, readHrxd_held]
  rfl

theorem hostBits_take (c : Byte) :
    (hostBits c).take 9 = .space :: (List.range 8).map (fun i => bitLevel (c.getLsbD i)) := rfl

/-- A character with some data bit 1 and no stop bit is a character error (R162). -/
theorem readHrxd_error {c : Byte} (nonzero : c ≠ 0#8) (ls : List LineLevel) :
    readHrxd .idle ((hostBits c).take 9 ++ .space :: .mark :: ls) =
      (.characterError :: (readHrxd .idle ls).1, (readHrxd .idle ls).2) := by
  rw [hostBits_take, List.cons_append, readHrxd_space rfl, bitsOf_byte]
  have signal : hostSignal (c, .space) = .characterError := if_neg nonzero
  rw [signal]
  rfl

/-- A receiver that no more characters reach drops the frame that it is receiving, at a break and at an error (R165). -/
theorem exec_broken {s : State} (noFrame : (s.link.rx.take []).1 = []) :
    exec (.lineBreak []) s = .next s.dropFrame ∧ exec (.characterError []) s = .next s.dropFrame :=
  ⟨congrArg _ (receiveChars_dropped noFrame), congrArg _ (receiveChars_dropped noFrame)⟩

/-- Settles O9: damaged characters bring the search nothing, and what is broken off is dropped. -/
theorem damagedFramesChangeNothing : Obligations.DamagedFramesChangeNothing := by
  refine ⟨fun s kind tag p check searching hp wrong quiet => ?_,
    fun s i f kind tag p pre post check searching hp wrong hf fits inner before after => ?_,
    fun s n searching long => exec_wrongLength searching long, readHrxd_break, fun c ls nonzero => readHrxd_error nonzero ls,
    fun s kind tag c p j n changed hp held => ?_,
    fun s kind tag p j m changed chars hp hj begun lacks hchars => ?_⟩
  · rw [exec_frameBadCheck, receiveChars_quiet searching ((scan_badCheck kind tag hp wrong).trans (scan_idle quiet))]
  · rw [exec_frameBadCheck, exec_frame hf, receiveChars_one searching fits]
    rw [scan_badCheck kind tag hp wrong, inner, scan_one f fits before after]
  · have idle : (s.link.rx.take []).1 = [] := by
      rcases held with searching | ⟨started, short, receiving⟩
      · rw [searching]
        rfl
      · have noFrame := take_of_begun hp le_rfl (.inr ⟨started, receiving⟩) (.inl short)
        rwa [List.drop_take_self] at noFrame
    obtain ⟨breaks, errs⟩ := exec_broken idle
    refine ⟨breaks.trans ?_, fun nonzero => errs.trans ?_⟩
    · rw [State.receiveLevels, readHrxd_break]
      rfl
    · rw [State.receiveLevels, readHrxd_error nonzero]
      rfl
  · subst hchars
    have dropped := receiveChars_dropped (take_of_begun hp hj begun lacks)
    exact ⟨congrArg _ dropped, congrArg _ dropped, congrArg _ dropped⟩

end Sys2Proof.Machine
end

section
/-!
SUPPORT. What comes before a request reaches its block: frames that are discarded (R166, R172, R179), and the checks of
the kind, the length and a store that is SAVING (R166, R185, R189, R190). It settles O10 and O11, and with STORE and
RESET O5.
-/

namespace Sys2Proof.Machine

/-! ### Frames that are discarded (R166, R172, R179) -/

theorem takeFrame_starting {s : State} (starting : s.link.state = .starting) (f : RxFrame) :
    State.takeFrame f s = s := by
  simp only [State.takeFrame, State.actOnFrame, starting, if_true, State.sendReady_starting s starting]

/-- With no room for a reply, or a reset pending, a frame shows that the plant computer is there, and no more (R166). -/
theorem takeFrame_untaken {s : State} (started : s.link.state ≠ .starting)
    (full : 8 ≤ s.link.replies.length ∨ s.link.resetPending = true) (f : RxFrame) :
    State.takeFrame f s = s.heard.sendReady := by
  have untaken : (if Config.maxReplies ≤ s.heard.link.replies.length then s.heard
      else if s.heard.link.resetPending then s.heard else s.heard.takeRequest f) = s.heard := by
    by_cases noRoom : Config.maxReplies ≤ s.heard.link.replies.length
    · exact if_pos noRoom
    · exact (if_neg noRoom).trans (if_pos (full.resolve_left noRoom))
  simp only [State.takeFrame, State.actOnFrame, started, if_false, heardHost_eq s started, untaken]

/-- Settles O10: a frame is not received while held in reset, and received it is discarded or only heard. -/
theorem framesAreDiscarded : Obligations.FramesAreDiscarded := by
  intro i f s hf hp searching
  rw [exec_frame hf]
  refine ⟨fun low => congrArg _ (receiveChars_held low _), fun starting => ?_, fun up started full => ?_⟩
  · cases low : s.store.rstnLow with
    | true => exact congrArg _ (receiveChars_held low _)
    | false => rw [receiveFrame_whole s _ _ _ low searching hp, takeFrame_starting starting]
  · rw [receiveFrame_whole s _ _ _ up searching hp, takeFrame_untaken started full]

/-! ### The lengths of the payloads (R190) -/

theorem asksFor_iff (n : Nat) (p : List Byte) : some n = some p.length ↔ p.length = n :=
  Option.some_inj.trans eq_comm

theorem readNothing_isSome (p : List Byte) : (readNothing p).isSome = true ↔ some 0 = some p.length := by
  rw [asksFor_iff, List.length_eq_zero_iff]
  unfold readNothing
  split <;> simp_all

theorem readOne_isSome (p : List Byte) : (readOne p).isSome = true ↔ some 1 = some p.length := by
  rw [asksFor_iff, List.length_eq_one_iff]
  unfold readOne
  split <;> simp_all

theorem readTwo_isSome (p : List Byte) : (readTwo p).isSome = true ↔ some 2 = some p.length := by
  rw [asksFor_iff, List.length_eq_two]
  unfold readTwo
  split <;> simp_all

theorem readHold_isSome (p : List Byte) : (readHold p).isSome = true ↔ some 3 = some p.length := by
  rw [asksFor_iff, List.length_eq_three]
  unfold readHold
  split <;> simp_all

theorem readBeacon_isSome (p : List Byte) : (readBeacon p).isSome = true ↔ some 2 = some p.length := by
  rw [asksFor_iff, List.length_eq_two]
  unfold readBeacon
  split <;> simp_all

theorem readDirect_isSome (p : List Byte) : (readDirect p).isSome = true ↔ some 6 = some p.length := by
  match p with
  | [] | [_] | [_, _] | [_, _, _] | [_, _, _, _] | [_, _, _, _, _] | _ :: _ :: _ :: _ :: _ :: _ :: _ :: _ =>
    simp [readDirect]
  | [_, _, _, _, _, _] => simp [readDirect]

theorem readParams_isSome (p : List Byte) : (readParams p).isSome = true ↔ some 27 = some p.length := by
  rw [asksFor_iff]
  unfold readParams
  split <;> simp_all

theorem readRaise_isSome (p : List Byte) :
    (readRaise p).isSome = true ↔ p[4]?.map (fun n => 5 + n.toNat) = some p.length := by
  match p with
  | [] | [_] | [_, _] | [_, _, _] | [_, _, _, _] => simp [readRaise]
  | _ :: _ :: _ :: _ :: n :: text =>
    by_cases fits : text.length = n.toNat <;> simp [readRaise, fits] <;> omega

theorem readPoint_isSome (p : List Byte) :
    (readPoint p).isSome = true ↔ p[5]?.map (fun n => 6 + n.toNat) = some p.length := by
  match p with
  | [] | [_] | [_, _] | [_, _, _] | [_, _, _, _] | [_, _, _, _, _] => simp [readPoint]
  | _ :: _ :: _ :: _ :: _ :: n :: text =>
    by_cases fits : text.length = n.toNat <;> simp [readPoint, fits] <;> omega

theorem readPool_isSome (p : List Byte) :
    (readPool p).isSome = true ↔ p[1]?.map (fun k => 2 + k.toNat) = some p.length := by
  match p with
  | [] | [_] => simp [readPool]
  | _ :: k :: crews =>
    by_cases fits : crews.length = k.toNat <;> simp [readPool, fits] <;> omega

theorem readStation_isSome (p : List Byte) :
    (readStation p).isSome = true ↔ p[4]?.map (fun k => 5 + k.toNat) = some p.length := by
  match p with
  | [] | [_] | [_, _] | [_, _, _] | [_, _, _, _] => simp [readStation]
  | _ :: _ :: _ :: _ :: k :: ns =>
    by_cases fits : ns.length = k.toNat <;> simp [readStation, fits] <;> omega

/-- Steps are read where they are six characters each. -/
theorem readSteps_length : ∀ (p : List Byte) (k : Nat),
    (∃ xs, readSteps p = some xs ∧ xs.length = k) ↔ p.length = 6 * k
  | [], k => by simp [readSteps]; omega
  | [_], k | [_, _], k | [_, _, _], k | [_, _, _, _], k | [_, _, _, _, _], k => by simp [readSteps]; omega
  | _ :: _ :: _ :: _ :: _ :: _ :: rest, k => by
    have ih := readSteps_length rest (k - 1)
    cases reads : readSteps rest with
    | none => simp [readSteps, reads] at ih ⊢; omega
    | some xs => simp [readSteps, reads] at ih ⊢; omega

theorem readLadder_isSome (p : List Byte) :
    (readLadder p).isSome = true ↔ p[5]?.map (fun k => 6 + 6 * k.toNat) = some p.length := by
  match p with
  | [] | [_] | [_, _] | [_, _, _] | [_, _, _, _] | [_, _, _, _, _] => simp [readLadder]
  | _ :: _ :: _ :: _ :: _ :: k :: steps =>
    have counted := readSteps_length steps k.toNat
    cases reads : readSteps steps with
    | none => simp [readLadder, reads] at counted ⊢; omega
    | some xs =>
      by_cases fits : xs.length = k.toNat <;> simp [readLadder, reads, fits] at counted ⊢ <;> omega

theorem readCrew_isSome (p : List Byte) : (readCrew p).isSome = true ↔
    p[5]?.bind (fun n => p[6 + n.toNat]?.map (fun m => 7 + n.toNat + 2 * m.toNat)) = some p.length := by
  match p with
  | [] | [_] | [_, _] | [_, _, _] | [_, _, _, _] | [_, _, _, _, _] => simp [readCrew]
  | _ :: _ :: _ :: _ :: _ :: n :: rest =>
    have count : rest[n.toNat]? = (rest.drop n.toNat).head? := List.head?_drop.symm
    have size := List.length_drop (l := rest) (i := n.toNat)
    cases after : rest.drop n.toNat with
    | nil => simp [readCrew, after, Nat.add_comm 6, count]
    | cons m pagers =>
      rw [after, List.length_cons] at size
      by_cases fits : pagers.length = 2 * m.toNat <;> simp [readCrew, after, Nat.add_comm 6, count, fits] <;> omega

/-! ### The checks of a request -/

theorem withOperands_unread {α : Type} {o : Option α} (h : ¬ o.isSome = true) (s : State) (f : α → Answer) :
    s.withOperands o f = s.refuse .badLength := by
  rw [Option.not_isSome_iff_eq_none.mp h]
  rfl

/-- A request that a store that is SAVING refuses (R185). -/
theorem withOperands_saving {α : Type} {o : Option α} (h : o.isSome = true) {s : State}
    (saving : s.store.state = .saving) (f : α → Answer) :
    s.withOperands o (fun x => s.unlessSaving (f x)) = s.refuse .storeBusy := by
  obtain ⟨x, rfl⟩ := Option.isSome_iff_exists.mp h
  exact if_pos (decide_eq_true saving)

/-- A kind outside 1 to 0x1A names no request (R189). -/
theorem serve_unknown {kind : Byte} (h : ¬ (1 ≤ kind.toNat ∧ kind.toNat ≤ 0x1A)) (p : List Byte) (s : State) :
    serve kind p s = s.refuse .unknownRequest := by
  unfold serve
  split
  rotate_left 26
  · rfl
  all_goals omega

/-- A payload whose length does not fit its kind is refused before anything is looked at (R166, R190). -/
theorem serve_badLength {kind : Byte} (h1 : 1 ≤ kind.toNat) (h2 : kind.toNat ≤ 0x1A) {p : List Byte}
    (misfit : ¬ lengthFits kind p) (s : State) : serve kind p s = s.refuse .badLength := by
  have unread {α : Type} {o : Option α} {fits : Prop} (reads : o.isSome = true ↔ fits) (misfit : ¬ fits)
      (f : α → Answer) : s.withOperands o f = s.refuse .badLength := withOperands_unread (mt reads.mp misfit) s f
  unfold lengthFits lengthAsked at misfit
  unfold serve
  generalize kind.toNat = k at *
  interval_cases k
  · exact unread (readRaise_isSome p) misfit _
  · exact unread (readTwo_isSome p) misfit _
  · exact unread (readTwo_isSome p) misfit _
  · exact unread (readTwo_isSome p) misfit _
  · exact unread (readNothing_isSome p) misfit _
  · exact unread (readPoint_isSome p) misfit _
  · exact unread (readCrew_isSome p) misfit _
  · exact unread (readPool_isSome p) misfit _
  · exact unread (readOne_isSome p) misfit _
  · exact unread (readOne_isSome p) misfit _
  · exact unread (readTwo_isSome p) misfit _
  · exact unread (readLadder_isSome p) misfit _
  · exact unread (readOne_isSome p) misfit _
  · exact unread (readTwo_isSome p) misfit _
  · exact unread (readDirect_isSome p) misfit _
  · exact unread (readNothing_isSome p) misfit _
  · exact unread (readOne_isSome p) misfit _
  · exact unread (readStation_isSome p) misfit _
  · exact unread (readOne_isSome p) misfit _
  · exact unread (readHold_isSome p) misfit _
  · exact unread (readNothing_isSome p) misfit _
  · exact unread (readBeacon_isSome p) misfit _
  · exact unread (readParams_isSome p) misfit _
  · exact unread (readNothing_isSome p) misfit _
  · exact unread (readNothing_isSome p) misfit _
  · exact unread (readNothing_isSome p) misfit _

/-- A store that is SAVING refuses every SET_ request and a second STORE (R185). -/
theorem serve_saving {kind : Byte} (h : kind.toNat ∈ [0x06, 0x07, 0x08, 0x0C, 0x12, 0x16, 0x17, 0x18]) {p : List Byte}
    (fits : lengthFits kind p) {s : State} (saving : s.store.state = .saving) :
    serve kind p s = s.refuse .storeBusy := by
  unfold lengthFits lengthAsked at fits
  unfold serve
  generalize kind.toNat = k at *
  simp only [List.mem_cons, List.not_mem_nil, or_false] at h
  rcases h with rfl | rfl | rfl | rfl | rfl | rfl | rfl | rfl
  · exact withOperands_saving ((readPoint_isSome p).mpr fits) saving _
  · exact withOperands_saving ((readCrew_isSome p).mpr fits) saving _
  · exact withOperands_saving ((readPool_isSome p).mpr fits) saving _
  · exact withOperands_saving ((readLadder_isSome p).mpr fits) saving _
  · exact withOperands_saving ((readStation_isSome p).mpr fits) saving _
  · exact withOperands_saving ((readBeacon_isSome p).mpr fits) saving _
  · exact withOperands_saving ((readParams_isSome p).mpr fits) saving _
  · exact withOperands_saving ((readNothing_isSome p).mpr fits) saving _

theorem replyKind_of_request {kind : Byte} (h : kind.toNat ≤ 0x1A) : replyKind kind = kind + 0x80#8 :=
  if_pos (by omega)

/-- A request that its checks refuse is answered with the code alone (R166, R167). -/
theorem receiveFrame_refused {s : State} (h : s.TakesRequests) (kind tag : Byte) {p : List Byte}
    (hp : p.length ≤ 250) {r : Result} (refused : serve kind p s.heard = s.heard.refuse r) :
    s.receiveFrame kind tag p = s.heard.replying (replyKind kind) tag r [] := by
  rw [receiveFrame_sends h kind tag p hp, refused]
  rfl

/-- Settles O11: each check answers before the block of the request is asked. -/
theorem requestsRefusedBeforeTheirBlock : Obligations.RequestsRefusedBeforeTheirBlock := by
  refine ⟨fun s kind tag p h hp unknown => ?_, fun i f s hf h1 h2 h hp misfit => ?_,
    fun i f s hf hk h hp fits saving => ?_⟩
  · exact congrArg _ (receiveFrame_refused h kind tag hp (serve_unknown unknown p s.heard))
  · rw [exec_frame hf, receiveFrame_refused h _ _ hp (serve_badLength h1 h2 misfit s.heard), replyKind_of_request h2]
  · have small : f.kind.toNat ≤ 0x1A := by
      have all : ∀ k ∈ [0x06, 0x07, 0x08, 0x0C, 0x12, 0x16, 0x17, 0x18], k ≤ 0x1A := by decide
      exact all _ hk
    rw [exec_frame hf, receiveFrame_refused h _ _ hp (serve_saving hk fits saving), replyKind_of_request small]

/-! ### STORE and RESET (R168, R176, R185, R186) -/

theorem endStore_eq (s : State) (r : StoreResult) (e : Eeprom) : s.endStore r e =
    State.withNotice { s with store := { s.store with state := .idle, lastResult := r, copy := none, eeprom := e } }
      .part := post_eq_withNotice _ _

theorem execStoreComplete_saving {s : State} {img : Image} (saving : s.store.state = .saving)
    (copy : s.store.copy = some img) : execStoreComplete s = .next (s.endStore .ok (.valid img)).sendReady := by
  unfold execStoreComplete
  rw [saving, copy]

theorem execStoreFailed_saving {s : State} (saving : s.store.state = .saving) :
    execStoreFailed s = .next (s.endStore .failed .invalid).sendReady := by
  unfold execStoreFailed
  rw [saving]

/-- A STORE that is taken copies the tables and makes the image invalid (R185). -/
theorem reqStore_idle {s : State} (idle : s.store.state = .idle) : reqStore [] s.heard =
    (State.withNotice { s.heard with store := { s.store with
      state := .saving, copy := some s.image, eeprom := .invalid } } .part).answer [] :=
  (unlessSaving_idle idle _).trans (congrArg (State.answer · []) (post_eq_withNotice _ _))

theorem exec_store {s : State} (h : s.TakesRequests) (tag : Byte) :
    exec (.store tag []) s = .next (State.sends 0x98#8 tag (reqStore [] s.heard)) :=
  congrArg _ (receiveFrame_sends h 0x18#8 tag [] (Nat.zero_le _))

theorem exec_reset {s : State} (h : s.TakesRequests) (tag : Byte) : exec (.reset tag []) s =
    .next (({ s.heard with link := { s.heard.link with resetPending := true } }).replying 0x9A#8 tag .ok []) :=
  congrArg _ (receiveFrame_sends h 0x1A#8 tag [] (Nat.zero_le _))

/-- While a reset is pending, HRDY is deasserted (R168, R176). -/
theorem hrdy_of_resetPending {s : State} (pending : s.link.resetPending = true) : s.hrdy = false := by
  simp [State.hrdy, pending]

/-- Settles O5: STORE and its two ends by the state of the store, RESET by the flag that it sets. -/
theorem storeAndResetBeginAndEnd : Obligations.StoreAndResetBeginAndEnd := by
  refine ⟨⟨fun s tag h idle => ?_, fun s img saving copy => ?_, fun s saving => ?_⟩,
    fun s tag h => ⟨_, exec_reset h tag, rfl, hrdy_of_resetPending (State.sendReady_resetPending _)⟩⟩
  · rw [exec_store h, reqStore_idle idle]
    rfl
  · rw [← endStore_eq]
    exact execStoreComplete_saving saving copy
  · rw [← endStore_eq]
    exact execStoreFailed_saving saving

end Sys2Proof.Machine
end

section
/-!
SUPPORT. SET_PARAMS: how its payload is read back, what clamping makes of its values, and what a new parameter set does
to the beacons and the silence timer (R174, R182 to R184). It settles O53.
-/

namespace Sys2Proof.Machine

/-! ### The payload of SET_PARAMS (R183, R189) -/

/-- A three-character number is read back as it was written. -/
theorem dec3_ofNat {n : Nat} (h : n < 16777216) :
    dec3 (BitVec.ofNat 8 (n / 65536)) (BitVec.ofNat 8 (n / 256)) (BitVec.ofNat 8 n) = n := by
  simp only [dec3, BitVec.toNat_ofNat]
  omega

/-- The values fit the characters that carry them (R189). -/
structure Params.Fits (v : Params) : Prop where
  factor : v.factor.routine < 256 ∧ v.factor.urgent < 256 ∧ v.factor.hazard < 256 ∧ v.factor.emergency < 256
  values : v.freshness < 65536 ∧ v.dedupe < 256 ∧ v.silence < 65536 ∧ v.pollPeriod < 256 ∧ v.airtimeLimit < 256 ∧
    v.stayLimit < 256 ∧ v.missLimit < 256 ∧ v.rate < 16777216
  pattern : ∀ c, (v.pattern.get c).period < 256 ∧ (v.pattern.get c).onTime < 256

/-- A SET_PARAMS payload is read back as its selection and its values (R183, R189). -/
theorem readParams_payload (sel : BitVec 24) {v : Params} (h : v.Fits) :
    readParams (enc3 sel.toNat ++ paramsReply v) = some ⟨sel.toNat, v⟩ := by
  obtain ⟨⟨f0, f1, f2, f3⟩, ⟨fresh, dedupe, silence, poll, air, stay, miss, rate⟩, pattern⟩ := h
  obtain ⟨p0, d0⟩ := pattern .routine
  obtain ⟨p1, d1⟩ := pattern .urgent
  obtain ⟨p2, d2⟩ := pattern .hazard
  obtain ⟨p3, d3⟩ := pattern .emergency
  rw [paramsReply_eq]
  refine (if_pos rfl).trans (congrArg some ?_)
  obtain ⟨factor, _, _, _, _, _, _, _, pairs, _⟩ := v
  simp only [ParamsOperands.mk.injEq, Params.mk.injEq]
  refine ⟨dec3_ofNat sel.isLt, ?_, dec2_enc2 fresh, toNat_count dedupe, dec2_enc2 silence, toNat_count poll,
    toNat_count air, toNat_count stay, toNat_count miss, ?_, dec3_ofNat rate⟩
  · exact PerClass.mk.injEq .. |>.mpr ⟨toNat_count f0, toNat_count f1, toNat_count f2, toNat_count f3⟩
  · exact PerClass.mk.injEq .. |>.mpr ⟨congrArg₂ Pattern.mk (toNat_count p0) (toNat_count d0),
      congrArg₂ Pattern.mk (toNat_count p1) (toNat_count d1), congrArg₂ Pattern.mk (toNat_count p2) (toNat_count d2),
      congrArg₂ Pattern.mk (toNat_count p3) (toNat_count d3)⟩

/-! ### The new values (R183) -/

theorem pick_eq {lo hi : Nat} (h : lo ≤ hi) (sel : BitVec 24) (i given inUse : Nat) :
    pick (selected sel.toNat i) lo hi given inUse =
      if sel.getLsbD i then max lo (min hi given) else inUse := by
  unfold pick
  rw [clamp_eq_max_min h]
  rfl

/-- A selected pair is clamped to its range, the on-time to the period as clamped (R183). -/
theorem pickPattern_eq (sel : BitVec 24) (i : Nat) (given inUse : Pattern) :
    pickPattern (selected sel.toNat i) given inUse = if sel.getLsbD i then
      ⟨max 2 (min 32 given.period), max 1 (min (max 2 (min 32 given.period)) given.onTime)⟩ else inUse := by
  unfold pickPattern
  rw [clamp_eq_max_min (by decide), clamp_eq_max_min (by omega)]
  rfl

theorem apply_pattern (o : ParamsOperands) (u : Params) (c : Cls) : (o.apply u).pattern.get c =
    pickPattern (selected o.selection (11 + c.rank)) (o.values.pattern.get c) (u.pattern.get c) := by
  cases c <;> rfl

/-- The rate given goes to the greatest listed one that is not above it, or to the least of all (R183). -/
theorem listedRate_spec (n : Nat) : listedRate n ∈ [9600, 19200, 38400, 57600, 115200] ∧
    (9600 ≤ n → listedRate n ≤ n) ∧ (n < 9600 → listedRate n = 9600) ∧
    ∀ q ∈ [9600, 19200, 38400, 57600, 115200], q ≤ n → q ≤ listedRate n := by
  have cases : listedRate n = 115200 ∧ 115200 ≤ n ∨ listedRate n = 57600 ∧ 57600 ≤ n ∧ n < 115200 ∨
      listedRate n = 38400 ∧ 38400 ≤ n ∧ n < 57600 ∨ listedRate n = 19200 ∧ 19200 ≤ n ∧ n < 38400 ∨
      listedRate n = 9600 ∧ n < 19200 := by
    unfold listedRate
    split_ifs <;> omega
  simp only [List.mem_cons, List.not_mem_nil, or_false]
  refine ⟨?_, fun _ => ?_, fun _ => ?_, fun q hq _ => ?_⟩
  all_goals omega

/-! ### What comes at once (R174, R184) -/

/-- What a beacon is once a new set of patterns is in use: one that drives with a changed pattern starts a period
(R157, R184). -/
def Beacon.repatterned (old new : PerClass Pattern) (now : Tick) (b : Beacon) : Beacon :=
  match b.driving with
  | none => b
  | some d => if new.get d.cls = old.get d.cls then b else { b with
      driving := some ⟨d.cls, (new.get d.cls).period, (new.get d.cls).onTime, now⟩
      output := if b.idle = .low then .high else .low }

theorem restartIfChanged_eq (old : PerClass Pattern) (z : Nat) (s : State) : State.restartIfChanged old z s =
    s.putBeacon z ((s.beacon z).repatterned old s.store.params.pattern s.clock) := by
  unfold State.restartIfChanged Beacon.repatterned
  cases (s.beacon z).driving with
  | none => exact (putBeacon_self s z).symm
  | some d =>
    dsimp only
    split
    · exact (putBeacon_self s z).symm
    · rw [← Level.active_eq]
      rfl

/-- The restart of beacons changes those beacons alone (R184). -/
theorem restarts_eq (old : PerClass Pattern) {zs : List Nat} (distinct : zs.Nodup) (inTable : ∀ z ∈ zs, 1 ≤ z ∧ z ≤ 8)
    (s : State) :
    forEach zs (State.restartIfChanged old) s =
      { s with beacons := (forEach zs (State.restartIfChanged old) s).beacons } ∧
    ∀ k, (forEach zs (State.restartIfChanged old) s).beacon k =
      if k ∈ zs then (s.beacon k).repatterned old s.store.params.pattern s.clock else s.beacon k := by
  induction zs generalizing s with
  | nil => exact ⟨rfl, fun k => (if_neg List.not_mem_nil).symm⟩
  | cons z zs ih =>
    obtain ⟨fresh, distinct⟩ := List.nodup_cons.mp distinct
    obtain ⟨hz, inTable⟩ := List.forall_mem_cons.mp inTable
    obtain ⟨rest, beacons⟩ := ih distinct inTable
      (s.putBeacon z ((s.beacon z).repatterned old s.store.params.pattern s.clock))
    have first : forEach (z :: zs) (State.restartIfChanged old) s = forEach zs (State.restartIfChanged old)
        (s.putBeacon z ((s.beacon z).repatterned old s.store.params.pattern s.clock)) :=
      congrArg (forEach zs (State.restartIfChanged old)) (restartIfChanged_eq old z s)
    rw [first]
    refine ⟨rest, fun k => (beacons k).trans ?_⟩
    by_cases hk : k = z
    · subst hk
      rw [if_neg fresh, if_pos List.mem_cons_self, putBeacon_beacon_self hz.1 hz.2]
    · rw [putBeacon_beacon_ne hk]
      simp only [List.mem_cons, hk, false_or]
      rfl

/-- A beacon that drives with a changed pattern restarts, whichever it is (R184). -/
theorem restarts_all (old : PerClass Pattern) (s : State) :
    forEach (List.range' 1 8) (State.restartIfChanged old) s =
      { s with beacons := (forEach (List.range' 1 8) (State.restartIfChanged old) s).beacons } ∧
    ∀ z, (forEach (List.range' 1 8) (State.restartIfChanged old) s).beacon z =
      (s.beacon z).repatterned old s.store.params.pattern s.clock := by
  obtain ⟨rest, beacons⟩ := restarts_eq old (zs := List.range' 1 8) (by decide) (by decide) s
  refine ⟨rest, fun z => (beacons z).trans ?_⟩
  split
  · rfl
  · next other =>
    have outside : s.beacon z = .released := beacon_outside s fun h => other (List.mem_range'_1.mpr (by omega))
    rw [outside]
    rfl

/-- A new parameter set in use: the beacons restart whose pattern changed, and a changed silence limit reloads the timer
of a link that is ONLINE (R174, R184). -/
theorem useParams_eq (u : State) (p : Params) : ∃ bs : Vector Beacon 8,
    (∀ z, row bs z .released = (u.beacon z).repatterned u.store.params.pattern p.pattern u.clock) ∧
    u.useParams p = { u with
      store := { u.store with params := p }
      beacons := bs
      link := if p.silence ≠ u.store.params.silence ∧ u.link.state = .online then
          { u.link with silence := some (tickAfter u.clock (p.silence * 8)) } else u.link } := by
  obtain ⟨rest, beacons⟩ := restarts_all u.store.params.pattern (u.setStore { u.store with params := p })
  refine ⟨_, beacons, ?_⟩
  generalize (forEach (List.range' 1 8) (State.restartIfChanged u.store.params.pattern)
    (u.setStore { u.store with params := p })).beacons = bs at rest ⊢
  unfold State.useParams
  simp only [rest]
  by_cases changed : p.silence ≠ u.store.params.silence ∧ u.link.state = .online
  · rw [if_pos changed]
    exact if_pos changed
  · rw [if_neg changed]
    exact if_neg changed

/-- A frame that sets parameters has armed the silence timer already, so that it runs by the limit then in use, whether
that changed or not (R174). -/
theorem useParams_heard (s : State) (p : Params) : ∃ bs : Vector Beacon 8,
    (∀ z, row bs z .released = (s.beacon z).repatterned s.store.params.pattern p.pattern s.clock) ∧
    s.heard.useParams p = { s.heard with
      store := { s.store with params := p }
      beacons := bs
      link := { s.heard.link with silence := some (s.clock + BitVec.ofNat 24 (p.silence * 8)) } } := by
  obtain ⟨bs, beacons, used⟩ := useParams_eq s.heard p
  refine ⟨bs, beacons, used.trans ?_⟩
  by_cases same : p.silence = s.store.params.silence
  · rw [if_neg fun h => h.1 same, same]
    rfl
  · rw [if_pos ⟨same, rfl⟩]
    rfl

theorem exec_setParams {s : State} (h : s.TakesRequests) (idle : s.store.state = .idle) (tag : Byte) (sel : BitVec 24)
    {v : Params} (fits : v.Fits) :
    exec (.setParams tag (enc3 sel.toNat ++ paramsReply v)) s = .next (State.sends 0x97#8 tag
      ((s.heard.useParams (ParamsOperands.apply ⟨sel.toNat, v⟩ s.store.params)).answer
        (paramsReply (ParamsOperands.apply ⟨sel.toNat, v⟩ s.store.params)))) := by
  have fitsFrame : (enc3 sel.toNat ++ paramsReply v).length ≤ Config.maxPayload := by
    rw [paramsReply_eq]
    simp [enc3, enc2, Config.maxPayload]
  have taken := receiveFrame_sends h 0x17#8 tag (enc3 sel.toNat ++ paramsReply v) fitsFrame
  refine congrArg Host.Outcome.next (taken.trans (congrArg (State.sends 0x97#8 tag) ?_))
  show reqSetParams _ s.heard = _
  unfold reqSetParams
  rw [readParams_payload sel fits]
  exact unlessSaving_idle idle _

/-- Settles O53: the payload is read back, each value is clamped by itself, and the new set comes into use. -/
theorem parametersAreClamped : Obligations.ParametersAreClamped := by
  intro s tag sel v h idle factor values pattern
  have executes := exec_setParams h idle tag sel ⟨factor, values, pattern⟩
  obtain ⟨bs, beacons, used⟩ := useParams_heard s (ParamsOperands.apply ⟨sel.toNat, v⟩ s.store.params)
  rw [used] at executes
  refine ⟨_, _, executes, rfl, ?_, ?_, ?_, ?_, ?_, ?_, ?_, ?_, fun c => ?_, fun unpicked => ?_, fun picked => ?_,
    fun z => (beacons z).trans ?_, rfl, rfl⟩
  · exact PerClass.mk.injEq .. |>.mpr ⟨pick_eq (by decide) sel 0 _ _, pick_eq (by decide) sel 1 _ _,
      pick_eq (by decide) sel 2 _ _, pick_eq (by decide) sel 3 _ _⟩
  · exact pick_eq (by decide) sel 4 _ _
  · exact pick_eq (by decide) sel 5 _ _
  · exact pick_eq (by decide) sel 6 _ _
  · exact pick_eq (by decide) sel 7 _ _
  · exact pick_eq (by decide) sel 8 _ _
  · exact pick_eq (by decide) sel 9 _ _
  · exact pick_eq (by decide) sel 10 _ _
  · rw [apply_pattern, pickPattern_eq]
  · exact if_neg (ne_true_of_eq_false unpicked)
  · have rate : (ParamsOperands.apply ⟨sel.toNat, v⟩ s.store.params).rate = listedRate v.rate := if_pos picked
    rw [rate]
    exact listedRate_spec v.rate
  · unfold Beacon.repatterned
    cases (s.beacon z).driving <;> rfl

end Sys2Proof.Machine
end

section
/-!
SUPPORT. The operations of the blocks leave the commands that wait alone, in the order of the blocks: a chain of
escalation steps by the chain, every other operation by its branches.
-/

namespace Sys2Proof.Machine

/-! ### Chains of escalation steps -/

theorem Act.pending {s t : State} (a : Act s t) : t.pending = s.pending := by
  cases a with
  | change n f _ => exact State.changeCall_pending s n f
  | pointer | queue | withdraw | grants | bursts => rfl

theorem Acts.pending {s t : State} (a : Acts s t) : t.pending = s.pending := by
  induction a with
  | refl => rfl
  | tail _ h ih => exact h.pending.trans ih

theorem forEach_pending {α : Type} (xs : List α) {f : α → State → State} (h : ∀ x s, (f x s).pending = s.pending)
    (s : State) : (forEach xs f s).pending = s.pending := by
  induction xs generalizing s with
  | nil => rfl
  | cons x xs ih => exact (ih (f x s)).trans (h x s)

variable (s : State)

@[simp] theorem State.arbitrate_pending (g : Nat) : (s.arbitrate g).pending = s.pending := (acts_arbitrate s g).pending
@[simp] theorem State.setWaitIdle_pending (st : Nat) (b : Bool) : (s.setWaitIdle st b).pending = s.pending :=
  (acts_setWaitIdle s st b).pending
@[simp] theorem State.releaseGrant_pending (st : Nat) : (s.releaseGrant st).pending = s.pending :=
  (acts_releaseGrant s st).pending
@[simp] theorem State.flush_pending (st : Nat) : (s.flush st).pending = s.pending := (acts_flush s st).pending
@[simp] theorem State.returnItems_pending (st : Nat) : (s.returnItems st).pending = s.pending :=
  (acts_returnItems s st).pending
@[simp] theorem State.burstFailed_pending (st : Nat) : (s.burstFailed st).pending = s.pending :=
  (acts_burstFailed s st).pending
@[simp] theorem State.burstTaken_pending (st : Nat) : (s.burstTaken st).pending = s.pending :=
  (acts_burstTaken s st).pending
@[simp] theorem State.transmitterSeen_pending (st : Nat) (busy : Bool) :
    (s.transmitterSeen st busy).pending = s.pending := (acts_transmitterSeen s st busy).pending
@[simp] theorem State.formBurst_pending (st : Nat) : (s.formBurst st).1.pending = s.pending :=
  (acts_formBurst s st).pending
@[simp] theorem State.sendToCrews_pending (mk : Nat → Item) (crews : List Nat) :
    (s.sendToCrews mk crews).pending = s.pending := (acts_sendToCrews s mk crews).pending
@[simp] theorem State.advanceCall_pending (n : Nat) : (s.advanceCall n).pending = s.pending :=
  (acts_advanceCall s n).pending
@[simp] theorem State.startCall_pending (n : Nat) (pref : Option Nat) : (s.startCall n pref).pending = s.pending :=
  (acts_startCall s n pref).pending
@[simp] theorem State.directStep_pending (n crew b r : Nat) : (s.directStep n crew b r).pending = s.pending :=
  (acts_directStep s n crew b r).pending
@[simp] theorem State.engineDecline_pending (n crew : Nat) : (s.engineDecline n crew).pending = s.pending :=
  (acts_engineDecline s n crew).pending
@[simp] theorem State.sendRepeat_pending (c : Call) : (s.sendRepeat c).pending = s.pending :=
  (acts_sendRepeat s c).pending
@[simp] theorem State.advanceAllReferred_pending : s.advanceAllReferred.pending = s.pending :=
  (acts_advanceAllReferred s).pending

/-! ### Crews, stations and beacons -/

@[simp] theorem State.changeCrew_pending (c : Nat) (x : Crew) : (s.changeCrew c x).pending = s.pending :=
  State.post_pending _ _
@[simp] theorem State.changeStation_pending (st : Nat) (x : Station) : (s.changeStation st x).pending = s.pending :=
  State.post_pending _ _
@[simp] theorem State.setHold_pending (z : Nat) (h : Option Cls) : (s.setHold z h).pending = s.pending :=
  State.actBeacon_pending _ z

@[simp] theorem State.beaconTick_pending (z : Nat) : (s.beaconTick z).pending = s.pending := by
  unfold State.beaconTick
  dsimp only
  split <;> rfl

theorem State.restartIfChanged_pending (old : PerClass Pattern) (z : Nat) (s : State) :
    (State.restartIfChanged old z s).pending = s.pending := by
  rw [restartIfChanged_eq]
  rfl

/-! ### The call book -/

@[simp] theorem State.addCall_pending (c : Call) : (s.addCall c).pending = s.pending := State.post_pending _ _

theorem State.setPoint_pending (st i : Nat) (x : PointState) : (s.setPoint st i x).pending = s.pending := rfl

@[simp] theorem State.definePoint_pending (st i l : Nat) (cls : Cls) (text : Text) :
    (s.definePoint st i l cls text).pending = s.pending := by
  unfold State.definePoint
  split <;> rfl

theorem obtainSlot_pending {s u : State} (h : s.obtainSlot = some u) : u.pending = s.pending := by
  rcases obtainSlot_cases h with ⟨-, rfl⟩ | ⟨n, _, -, -, rfl⟩ <;> rfl

@[simp] theorem State.raiseFromPoint_pending (p : CallPoint) : (s.raiseFromPoint p).pending = s.pending := by
  rw [raiseFromPoint_eq, State.startCall_pending, State.setPoint_pending, State.addCall_pending]

@[simp] theorem State.pressOpen_pending (n : Nat) : (s.pressOpen n).pending = s.pending := by
  cases h : s.findCall n with
  | none => rw [pressOpen_none s n h]
  | some c => rw [pressOpen_eq s n c h]; split <;> simp

@[simp] theorem State.press_pending (st i : Nat) : (s.press st i).pending = s.pending := by
  unfold State.press
  split
  · rfl
  · split
    · split
      · next hu => rw [State.raiseFromPoint_pending]; exact obtainSlot_pending hu
      · rfl
    · exact State.pressOpen_pending s _
    · rfl

theorem State.leaveCrew?_pending (n : Nat) (a : Option Nat) : (s.leaveCrew? n a).pending = s.pending := by
  cases a with
  | none => rfl
  | some a => exact State.changeCrew_pending _ _ _

theorem State.closeRecord_pending (r : CloseReason) (c : Call) : (s.closeRecord r c).pending = s.pending := by
  rw [closeRecord_eq, State.markClosed, State.setBook_pending, State.changeCall_pending, State.leaveCrew?_pending]
  exact State.sendToCrews_pending _ _ _

theorem State.takePress_pending (rest : List (Nat × Nat)) : (s.takePress rest).pending = s.pending := by
  unfold State.takePress State.evictOldest
  split <;> rfl

theorem State.servePending_pending : s.servePending.pending = s.pending := by
  cases h : s.book.pendingPresses with
  | nil => rw [servePending_nil s h]
  | cons key rest =>
    rw [servePending_cons s key rest h]
    split
    · exact State.takePress_pending s rest
    · rw [State.raiseFromPoint_pending, State.takePress_pending]

@[simp] theorem State.closeCall_pending (r : CloseReason) (n : Nat) : (s.closeCall r n).pending = s.pending := by
  cases h : s.findCall n with
  | none => unfold State.closeCall; rw [h]
  | some c =>
    rw [closeCall_eq s r n c h, State.servePending_pending, settlePoint_eq, State.setBook_pending,
      State.closeRecord_pending]

@[simp] theorem State.releaseCrew_pending (c : Call) : (s.releaseCrew c).pending = s.pending := by
  rw [releaseCrew_eq, State.leaveCrew?_pending, State.changeCall_pending]

/-! ### Acknowledgements -/

@[simp] theorem State.acceptCall_pending (c : Call) (crew : Nat) (heard : Tick) :
    (s.acceptCall c crew heard).pending = s.pending := by
  refine (engine_acceptCall s c crew heard).frame.pending.trans ?_
  simp [State.acceptRecord]

@[simp] theorem State.acceptAsDecline_pending (c : Call) (crew : Nat) :
    (s.acceptAsDecline c crew).pending = s.pending := by
  unfold State.acceptAsDecline
  dsimp only
  split <;> simp

@[simp] theorem State.lateAccept_pending (c : Call) (crew : Nat) : (s.lateAccept c crew).pending = s.pending := by
  unfold State.lateAccept
  split
  · rfl
  · split
    · rfl
    · split
      · exact State.sendToCrews_pending _ _ _
      · rfl

theorem State.applyAck_pending (kind : AckKind) (c : Call) (crew : Nat) (heard : Tick) :
    (s.applyAck kind c crew heard).pending = s.pending := by
  cases kind with
  | accept =>
    show (s.ackAccept c crew heard).pending = s.pending
    unfold State.ackAccept
    split <;> simp [apply_ite State.pending]
  | decline =>
    show (s.ackDecline c crew).pending = s.pending
    simp [State.ackDecline, apply_ite State.pending]
  | onScene =>
    show (s.ackOnScene c crew heard).pending = s.pending
    unfold State.ackOnScene
    split <;> simp [apply_ite State.pending]
  | done =>
    show (s.ackDone c crew).pending = s.pending
    unfold State.ackDone
    split <;> simp [apply_ite State.pending]

@[simp] theorem State.matchAck_pending (r : AckRecord) (heard : Tick) : (s.matchAck r heard).pending = s.pending := by
  unfold State.matchAck
  split
  · rfl
  · split
    · rfl
    · split
      · rfl
      · split
        · rfl
        · exact s.applyAck_pending _ _ _ heard

@[simp] theorem State.seePager_pending (pager : Nat) (l : Location) : (s.seePager pager l).pending = s.pending := rfl

@[simp] theorem State.takeAck_pending (st : Nat) (r : AckRecord) : (s.takeAck st r).pending = s.pending := by
  simp [State.takeAck, apply_ite State.pending]

/-! ### The station line -/

@[simp] theorem State.addFollowUp_pending (st : Nat) : (s.addFollowUp st).pending = s.pending := rfl
@[simp] theorem State.dropFollowUp_pending (st : Nat) : (s.dropFollowUp st).pending = s.pending := rfl
@[simp] theorem State.voidExchange_pending (st : Nat) : (s.voidExchange st).pending = s.pending := rfl

@[simp] theorem State.armDue_pending (st : Nat) : (s.armDue st).pending = s.pending := by
  unfold State.armDue
  dsimp only
  split <;> rfl

@[simp] theorem State.goSilent_pending (st m : Nat) : (s.goSilent st m).pending = s.pending := by
  simp [State.goSilent]

@[simp] theorem State.recordMiss_pending (st : Nat) : (s.recordMiss st).pending = s.pending := by
  unfold State.recordMiss
  dsimp only
  split <;> simp [apply_ite State.pending]

@[simp] theorem State.recordAnswer_pending (st : Nat) : (s.recordAnswer st).pending = s.pending := by
  unfold State.recordAnswer
  dsimp only
  split <;> simp [apply_ite State.pending]

theorem State.handOnward_pending (st : Nat) (r : FloorRecord) (s : State) :
    (State.handOnward st r s).pending = s.pending := by
  cases r with
  | ack q a => exact s.takeAck_pending st a
  | press q i => exact s.press_pending st i

theorem State.judgeRecord_pending (st : Nat) (r : FloorRecord) (s : State) :
    (State.judgeRecord st r s).pending = s.pending := by
  simp [State.judgeRecord, apply_ite State.pending, State.handOnward_pending]

@[simp] theorem State.takeRecords_pending (st : Nat) (resync : Bool) (newest : Byte) (records : List FloorRecord) :
    (s.takeRecords st resync newest records).pending = s.pending := by
  unfold State.takeRecords
  split
  · exact forEach_pending records (State.handOnward_pending st) s
  · exact forEach_pending records (State.judgeRecord_pending st) s

@[simp] theorem State.pollAnswered_pending (x : Exchange) (busy more : Bool) (newest : Byte)
    (records : List FloorRecord) : (s.pollAnswered x busy more newest records).pending = s.pending := by
  unfold State.pollAnswered
  dsimp only
  split <;> simp [apply_ite State.pending]

@[simp] theorem State.burstAnswered_pending (x : Exchange) (taken : Bool) :
    (s.burstAnswered x taken).pending = s.pending := by
  simp [State.burstAnswered, apply_ite State.pending]

@[simp] theorem State.noReply_pending (x : Exchange) : (s.noReply x).pending = s.pending := by
  unfold State.noReply
  split <;> simp [apply_ite State.pending]

@[simp] theorem State.endExchange_pending (x : Exchange) (reply : Option ValidReply) :
    (s.endExchange x reply).pending = s.pending := by
  unfold State.endExchange
  dsimp only
  split
  · rfl
  · split <;> simp

@[simp] theorem State.receiveReply_pending (cs : List Char9) : (s.receiveReply cs).pending = s.pending := by
  unfold State.receiveReply
  split
  · rfl
  · split <;> simp

@[simp] theorem State.airtimeOver_pending (st : Nat) : (s.airtimeOver st).pending = s.pending := by
  simp [State.airtimeOver]

theorem State.beginPoll_pending (st : Nat) : (s.beginPoll st).pending = s.pending := rfl

@[simp] theorem State.beginBurst_pending (st : Nat) : (s.beginBurst st).pending = s.pending := by
  simp [State.beginBurst, apply_ite State.pending]

/-! ### The tables, the stations and the parameters as requests change them -/

@[simp] theorem State.replaceCrew_pending (c : Nat) (x : Crew) : (s.replaceCrew c x).pending = s.pending := by
  simp [State.replaceCrew, apply_ite State.pending]

@[simp] theorem State.changeGroup_pending (st g : Nat) : (s.changeGroup st g).pending = s.pending := by
  simp [State.changeGroup, apply_ite State.pending]

@[simp] theorem State.leaveService_pending (st : Nat) : (s.leaveService st).pending = s.pending := by
  simp [State.leaveService]

@[simp] theorem State.enterService_pending (st : Nat) : (s.enterService st).pending = s.pending := by
  simp [State.enterService]

@[simp] theorem State.defineStation_pending (st g : Nat) (v : Service) (ns : List Nat) :
    (s.defineStation st g v ns).pending = s.pending := by
  unfold State.defineStation
  dsimp only
  split <;> simp

@[simp] theorem State.redefineStation_pending (st g : Nat) (v : Service) (ns : List Nat) :
    (s.redefineStation st g v ns).pending = s.pending := by
  simp [State.redefineStation, apply_ite State.pending]

@[simp] theorem State.removeStation_pending (st : Nat) : (s.removeStation st).pending = s.pending := by
  simp [State.removeStation]

theorem State.useParams_pending (p : Params) : (s.useParams p).pending = s.pending := by
  obtain ⟨_, -, used⟩ := useParams_eq s p
  rw [used]

end Sys2Proof.Machine
end

section
/-!
SUPPORT. The requests, the host link and the commands leave the commands that wait alone. It settles O2.
-/

namespace Sys2Proof.Machine

/-! ### The requests -/

/-- A request leaves the commands that wait alone. -/
def State.LeavesWaiting (s : State) (a : Answer) : Prop := a.2.2.pending = s.pending

theorem leavesWaiting_withOperands {α : Type} (s : State) (o : Option α) {f : α → Answer}
    (h : ∀ x, s.LeavesWaiting (f x)) : s.LeavesWaiting (s.withOperands o f) := by
  cases o with
  | none => rfl
  | some x => exact h x

theorem leavesWaiting_unlessSaving {s : State} {a : Answer} (h : s.LeavesWaiting a) :
    s.LeavesWaiting (s.unlessSaving a) := by
  unfold State.unlessSaving
  split
  · rfl
  · exact h

theorem leavesWaiting_onOpenCall (s : State) (n : Nat) {f : Call → Answer} (h : ∀ c, s.LeavesWaiting (f c)) :
    s.LeavesWaiting (s.onOpenCall n f) := by
  unfold State.onOpenCall
  split
  · rfl
  · split
    · rfl
    · split
      · rfl
      · exact h _

/-- A branch that refuses changes nothing. -/
theorem leavesWaiting_refuse_or {s : State} {c : Prop} [Decidable c] {r : Result} {a : Answer} (h : s.LeavesWaiting a) :
    s.LeavesWaiting (if c then s.refuse r else a) := by
  split
  · rfl
  · exact h

theorem leavesWaiting_raise (p : List Byte) (s : State) : s.LeavesWaiting (reqRaise p s) := by
  refine leavesWaiting_withOperands s _ fun o => ?_
  split
  · rfl
  · refine leavesWaiting_refuse_or ?_
    split
    · rfl
    · next u slot =>
      show ((u.addCall _).startCall _ _).pending = s.pending
      rw [State.startCall_pending, State.addCall_pending, obtainSlot_pending slot]

theorem leavesWaiting_close (s : State) (r : CloseReason) (p : List Byte) (contents : Nat → List Byte) :
    s.LeavesWaiting (s.withOperands (readTwo p) fun n =>
      s.onOpenCall n fun _ => (s.closeCall r n).answer (contents n)) :=
  leavesWaiting_withOperands s _ fun n => leavesWaiting_onOpenCall s n fun _ => s.closeCall_pending r n

theorem leavesWaiting_advance (p : List Byte) (s : State) : s.LeavesWaiting (reqAdvance p s) :=
  leavesWaiting_withOperands s _ fun n => leavesWaiting_onOpenCall s n fun c => by
    split
    · exact s.advanceCall_pending n
    · rfl

theorem leavesWaiting_direct (p : List Byte) (s : State) : s.LeavesWaiting (reqDirect p s) :=
  leavesWaiting_withOperands s _ fun o => leavesWaiting_onOpenCall s o.call fun _ =>
    leavesWaiting_refuse_or <| leavesWaiting_refuse_or <| leavesWaiting_refuse_or <| s.directStep_pending _ _ _ _

theorem leavesWaiting_setCallpoint (p : List Byte) (s : State) : s.LeavesWaiting (reqSetCallpoint p s) := by
  refine leavesWaiting_withOperands s _ fun o => leavesWaiting_unlessSaving ?_
  split
  · unfold State.callpointDefine
    split
    · rfl
    · exact leavesWaiting_refuse_or (leavesWaiting_refuse_or (s.definePoint_pending _ _ _ _ _))
  · split
    · refine leavesWaiting_refuse_or ?_
      split
      · rfl
      · split <;> rfl
    · rfl

theorem leavesWaiting_setCrew (p : List Byte) (s : State) : s.LeavesWaiting (reqSetCrew p s) := by
  refine leavesWaiting_withOperands s _ fun o => leavesWaiting_unlessSaving ?_
  refine leavesWaiting_refuse_or (leavesWaiting_refuse_or ?_)
  split
  · exact leavesWaiting_refuse_or (s.replaceCrew_pending _ _)
  · exact leavesWaiting_refuse_or (s.replaceCrew_pending _ _)

theorem leavesWaiting_setPool (p : List Byte) (s : State) : s.LeavesWaiting (reqSetPool p s) :=
  leavesWaiting_withOperands s _ fun _ => leavesWaiting_unlessSaving (leavesWaiting_refuse_or rfl)

theorem leavesWaiting_setLadder (p : List Byte) (s : State) : s.LeavesWaiting (reqSetLadder p s) := by
  refine leavesWaiting_withOperands s _ fun o => leavesWaiting_unlessSaving ?_
  split <;> rfl

theorem leavesWaiting_setStation (p : List Byte) (s : State) : s.LeavesWaiting (reqSetStation p s) := by
  refine leavesWaiting_withOperands s _ fun o => leavesWaiting_unlessSaving ?_
  split
  · unfold State.stationDefine
    split
    · rfl
    · refine leavesWaiting_refuse_or ?_
      split
      · exact s.redefineStation_pending _ _ _ _
      · exact s.defineStation_pending _ _ _ _
  · split
    · exact leavesWaiting_refuse_or (leavesWaiting_refuse_or (s.removeStation_pending _))
    · rfl

theorem leavesWaiting_beaconHold (p : List Byte) (s : State) : s.LeavesWaiting (reqBeaconHold p s) := by
  refine leavesWaiting_withOperands s _ fun o => ?_
  split
  · unfold State.beaconHold
    split
    · rfl
    · split
      · exact s.setHold_pending _ _
      · rfl
  · split
    · unfold State.beaconRelease
      split
      · exact s.setHold_pending _ _
      · rfl
    · rfl

theorem leavesWaiting_setBeacon (p : List Byte) (s : State) : s.LeavesWaiting (reqSetBeacon p s) := by
  refine leavesWaiting_withOperands s _ fun o => leavesWaiting_unlessSaving ?_
  split
  · rfl
  · refine leavesWaiting_refuse_or ?_
    split <;> rfl

theorem leavesWaiting_setParams (p : List Byte) (s : State) : s.LeavesWaiting (reqSetParams p s) :=
  leavesWaiting_withOperands s _ fun _ => leavesWaiting_unlessSaving (s.useParams_pending _)

theorem leavesWaiting_store (p : List Byte) (s : State) : s.LeavesWaiting (reqStore p s) :=
  leavesWaiting_withOperands s _ fun _ => leavesWaiting_unlessSaving (State.post_pending _ .part)

theorem leavesWaiting_reset (p : List Byte) (s : State) : s.LeavesWaiting (reqReset p s) :=
  leavesWaiting_withOperands s _ fun _ => rfl

/-- A query changes nothing: each answers or refuses in the state that it reads. -/
theorem leavesWaiting_queries (s : State) (p : List Byte) :
    s.LeavesWaiting (reqQueryCall p s) ∧ s.LeavesWaiting (reqQueryCrew p s) ∧ s.LeavesWaiting (reqQueryPool p s) ∧
    s.LeavesWaiting (reqQueryPager p s) ∧ s.LeavesWaiting (reqQueryLadder p s) ∧
    s.LeavesWaiting (reqQueryQueue p s) ∧ s.LeavesWaiting (reqQueryStation p s) := by
  refine ⟨?_, ?_, ?_, ?_, ?_, ?_, ?_⟩
  all_goals refine leavesWaiting_withOperands s _ fun _ => ?_
  all_goals repeat' split
  all_goals rfl

theorem leavesWaiting_serve (kind : Byte) (p : List Byte) (s : State) : s.LeavesWaiting (serve kind p s) := by
  obtain ⟨call, crew, pool, pager, ladder, queue, station⟩ := leavesWaiting_queries s p
  have lists : ∀ (o : Option Unit) (f : List Byte), s.LeavesWaiting (s.withOperands o fun _ => s.answer f) :=
    fun o f => leavesWaiting_withOperands s o fun _ => rfl
  unfold serve
  split
  · exact leavesWaiting_raise p s
  · exact leavesWaiting_close s .cleared p _
  · exact leavesWaiting_close s .cancelled p _
  · exact call
  · exact lists _ _
  · exact leavesWaiting_setCallpoint p s
  · exact leavesWaiting_setCrew p s
  · exact leavesWaiting_setPool p s
  · exact crew
  · exact pool
  · exact pager
  · exact leavesWaiting_setLadder p s
  · exact ladder
  · exact leavesWaiting_advance p s
  · exact leavesWaiting_direct p s
  · exact lists _ _
  · exact queue
  · exact leavesWaiting_setStation p s
  · exact station
  · exact leavesWaiting_beaconHold p s
  · exact lists _ _
  · exact leavesWaiting_setBeacon p s
  · exact leavesWaiting_setParams p s
  · exact leavesWaiting_store p s
  · exact lists _ _
  · exact leavesWaiting_reset p s
  · rfl

/-! ### The host link and the start-up load -/

theorem State.armSilence_pending (s : State) : s.armSilence.pending = s.pending := rfl

theorem State.heardHost_pending (s : State) : s.heardHost.pending = s.pending := by
  simp [State.heardHost, apply_ite State.pending, State.armSilence_pending]

theorem State.takeFrame_pending (f : RxFrame) (s : State) : (State.takeFrame f s).pending = s.pending := by
  have taken (u : State) : (u.takeRequest f).pending = u.pending := leavesWaiting_serve f.kind f.payload u
  simp [State.takeFrame, State.actOnFrame, apply_ite State.pending, taken, State.heardHost_pending]

theorem State.receiveChars_pending (s : State) (cs : List Byte) : (s.receiveChars cs).pending = s.pending := by
  unfold State.receiveChars
  split
  · rfl
  · exact forEach_pending _ State.takeFrame_pending _

/-! ### The commands -/

/-- A command that ends in a next state, with `q` waiting behind it. -/
def Continues (q : List Instr) (o : Host.Outcome State Fault Refusal) : Prop := ∃ t, o = .next t ∧ t.pending = q

theorem continues_next {q : List Instr} {t : State} (h : t.pending = q) : Continues q (.next t) := ⟨t, rfl, h⟩

/-- An event ends with the start of a frame that is ready, which leaves the commands that wait alone. -/
theorem continues_event {q : List Instr} {t : State} (h : t.pending = q) : Continues q (.next t.sendReady) :=
  continues_next ((State.sendReady_pending t).trans h)

/-- A command that acts where its event can occur, and else changes nothing. -/
theorem continues_ite {q : List Instr} {c : Prop} [Decidable c] {o : Host.Outcome State Fault Refusal} {s : State}
    (ho : Continues q o) (hs : s.pending = q) : Continues q (if c then o else .next s) := by
  split
  · exact ho
  · exact continues_next hs

theorem continues_startUpLoadEnd (s : State) (found : EepromRead) :
    Continues s.pending (execStartUpLoadEnd found s) :=
  continues_ite (continues_event (State.post_pending _ .part)) rfl

theorem continues_repeatExpiry (s : State) (n : Nat) : Continues s.pending (execRepeatExpiry n s) := by
  unfold execRepeatExpiry
  cases s.findCall n with
  | none => exact continues_next rfl
  | some c => exact continues_ite (continues_event (s.sendRepeat_pending c)) rfl

theorem continues_stepDeadlineExpiry (s : State) (n : Nat) : Continues s.pending (execStepDeadlineExpiry n s) := by
  unfold execStepDeadlineExpiry
  cases s.findCall n with
  | none => exact continues_next rfl
  | some _ => exact continues_ite (continues_event (s.advanceCall_pending n)) rfl

theorem continues_arrivalExpiry (s : State) (n : Nat) : Continues s.pending (execArrivalExpiry n s) := by
  unfold execArrivalExpiry
  cases s.findCall n with
  | none => exact continues_next rfl
  | some _ => exact continues_ite (continues_event (by simp)) rfl

theorem continues_beaconPeriodEnd (s : State) (z : Nat) : Continues s.pending (execBeaconPeriodEnd z s) := by
  unfold execBeaconPeriodEnd
  cases (s.beacon z).driving with
  | none => exact continues_next rfl
  | some _ => exact continues_ite (continues_next (s.beaconTick_pending z)) rfl

theorem continues_beaconOnTimeEnd (s : State) (z : Nat) : Continues s.pending (execBeaconOnTimeEnd z s) := by
  unfold execBeaconOnTimeEnd
  cases (s.beacon z).driving with
  | none => exact continues_next rfl
  | some _ => exact continues_ite (continues_next (s.beaconTick_pending z)) rfl

theorem continues_replyWindowExpiry (s : State) : Continues s.pending (execReplyWindowExpiry s) := by
  unfold execReplyWindowExpiry
  cases s.line.exchange with
  | none => exact continues_next rfl
  | some x => exact continues_event (s.endExchange_pending x none)

theorem continues_malformedReplyStart (s : State) (cs : List Char9) :
    Continues s.pending (execMalformedReplyStart cs s) := by
  unfold execMalformedReplyStart
  cases s.line.exchange with
  | none => exact continues_next rfl
  | some x => exact continues_ite (continues_event (s.endExchange_pending x none)) rfl

theorem continues_pollExchangeBegin (s : State) : Continues s.pending (execPollExchangeBegin s) := by
  unfold execPollExchangeBegin
  split
  · exact continues_next (s.beginPoll_pending _)
  · exact continues_next rfl

theorem continues_burstExchangeBegin (s : State) : Continues s.pending (execBurstExchangeBegin s) := by
  unfold execBurstExchangeBegin
  split
  · exact continues_next (s.beginBurst_pending _)
  · exact continues_next rfl

theorem continues_frameSent (s : State) (hcts : Bool) : Continues s.pending (execFrameSent hcts s) := by
  unfold execFrameSent
  split
  · exact continues_event rfl
  · next f _ =>
    have freed := freeSent_pending (s.setLink { s.link with sending := none, hcts := hcts }) f
    dsimp only
    split
    · exact continues_next freed
    · exact continues_event freed

theorem continues_storeComplete (s : State) : Continues s.pending (execStoreComplete s) := by
  unfold execStoreComplete
  split
  · exact continues_event (State.post_pending _ .part)
  · exact continues_next rfl

theorem continues_storeFailed (s : State) : Continues s.pending (execStoreFailed s) := by
  unfold execStoreFailed
  split
  · exact continues_event (State.post_pending _ .part)
  · exact continues_next rfl

/-- Every command ends in a next state and leaves the commands behind it alone. -/
theorem exec_continues (i : Instr) (s : State) : Continues s.pending (exec i s) := by
  cases hf : Instr.frame? i with
  | some f => exact exec_frame hf s ▸ continues_next (s.receiveChars_pending _)
  | none =>
    cases i with
    | powerOn | dedupeEntryExpiry | locationExpiry => exact continues_next rfl
    | rstnLow =>
      show Continues s.pending (if s.store.rstnLow then _ else _)
      split <;> exact continues_next rfl
    | rstnHigh => exact continues_ite (continues_next rfl) rfl
    | siteClockTick =>
      show Continues s.pending (if s.store.rstnLow then _ else _)
      split <;> exact continues_next rfl
    | startUpLoadEnd found => exact continues_startUpLoadEnd s found
    | repeatExpiry n => exact continues_repeatExpiry s n
    | stepDeadlineExpiry n => exact continues_stepDeadlineExpiry s n
    | arrivalExpiry n => exact continues_arrivalExpiry s n
    | airtimeDeadlineExpiry st => exact continues_ite (continues_event (s.airtimeOver_pending st)) rfl
    | pollDue st => exact continues_ite (continues_next rfl) rfl
    | beaconPeriodEnd z => exact continues_beaconPeriodEnd s z
    | beaconOnTimeEnd z => exact continues_beaconOnTimeEnd s z
    | silenceTimerExpiry => exact continues_ite (continues_event (by simp)) rfl
    | frameBadCheck | wrongLength => exact continues_next (s.receiveChars_pending _)
    | frameGap | lineBreak | characterError => exact continues_next (s.receiveChars_pending _)
    | hctsAsserted => exact continues_event rfl
    | frameSent hcts => exact continues_frameSent s hcts
    | storeComplete => exact continues_storeComplete s
    | storeFailed => exact continues_storeFailed s
    | pollExchangeBegin => exact continues_pollExchangeBegin s
    | burstExchangeBegin => exact continues_burstExchangeBegin s
    | replyWindowExpiry => exact continues_replyWindowExpiry s
    | replyGapAbandon => exact continues_replyWindowExpiry s
    | malformedReplyStart cs => exact continues_malformedReplyStart s cs
    | pollReply cs | burstReply cs => exact continues_event (s.receiveReply_pending cs)
    | _ => cases hf

/-- Settles O2: command by command, no operation of a block writes the queue of waiting commands. -/
theorem noCommandStopsTheBlock : Obligations.NoCommandStopsTheBlock := exec_continues

end Sys2Proof.Machine
end
